-- ==== Sys2Proof/Word.lean ====
section
/-! DEFINITION. The word types of HSP (spec 00_scope R9, R10): a status byte, a gauge word, a brightness. -/

namespace Sys2Proof

/-- `u8`: a status byte, a command word, a register number (R9, R61). -/
abbrev Byte := BitVec 8

/-- `u16`: a gauge word (30_encoding R114). -/
abbrev Word := BitVec 16

/-- Four bits: the brightness field, `dev` and `op` of a command word (10_state R22, 30_encoding R105). -/
abbrev Nibble := BitVec 4

end Sys2Proof
end

