-- ==== Sys2Proof/Syntax.lean ====
section
/-! DEFINITION. The command set of HSP, one constructor per row of spec/opcode_table.json (30_encoding R106), and the
formats that pass between the block, the buses and the host (30_encoding R100). -/

namespace Sys2Proof

/-- The 24 commands (30_encoding R106). A command has no fields: the level of BACKLIGHT.N is in its word (R116), and the
speaker's operand comes on its own lines (R107). -/
inductive Instr where
  | batteryState
  | batteryCapacity
  | batteryTime
  | systemState
  | systemOff
  | backlightState
  | backlight1
  | backlight2
  | backlight3
  | backlight4
  | backlight5
  | backlight6
  | backlight7
  | backlight8
  | backlight9
  | backlight10
  | backlightIncrease
  | backlightDecrease
  | backlightOn
  | backlightOff
  | lidState
  | speakerLeft
  | speakerRight
  | speakerMono
  deriving DecidableEq, Repr

/-- A byte sequence of length 1 or more: what one `RegWrite` carries (20_memory R63, 30_encoding R115). -/
structure ByteSeq where
  head : Byte
  tail : List Byte
  deriving DecidableEq, Repr, Inhabited

/-- The decoded status byte (10_state R21). -/
structure HubStatus where
  powerOff         : Bool
  screenOff        : Bool
  lidOpen          : Bool
  brightness       : Nibble
  stateParity      : Bool
  brightnessParity : Bool
  deriving DecidableEq, Repr

/-- The charge direction (10_state R20, R27). -/
inductive Direction where
  | unknown
  | charging
  | discharging
  deriving DecidableEq, Repr

/-- The tag of a directive (30_encoding R115); `left`, `right`, `mono` are also the modes of a speaker command (R117). -/
inductive Tag where
  | always
  | left
  | right
  | mono
  | other
  deriving DecidableEq, Repr

/-- One record of the speaker command list (30_encoding R115); the label is dropped by the host. -/
structure Directive where
  tag    : Tag
  reg    : Byte
  values : ByteSeq
  deriving DecidableEq, Repr

/-- The two buses (20_memory R60). -/
inductive Bus where
  | hub
  | reg
  deriving DecidableEq, Repr

/-- The four registers of the gauge (20_memory R70). -/
inductive GaugeReg where
  | state
  | capacity
  | chargeTime
  | dischargeTime
  deriving DecidableEq, Repr

/-- The payload of a result (30_encoding R118). -/
inductive Payload where
  | direction (d : Direction)
  | capacity (raw : Word)
  | time (d : Direction) (minutes : Word)
  | status (rxb : Byte) (s : HubStatus)
  | applied (n : Nat)
  deriving DecidableEq, Repr

/-- The four failures (60_exceptions R270). -/
inductive Failure where
  | busFailure (attempts : Nat)
  | configMissing
  | mixerQueryFailed
  | invalidArgument
  deriving DecidableEq, Repr

/-- What a result record says to its reader: a payload when `err` is 0, a failure by its code, or a code that is never
written (10_state R32, 60_exceptions R275). -/
inductive Report where
  | ok (p : Payload)
  | failed (f : Failure)
  | unassigned (code : BitVec 3)
  deriving DecidableEq, Repr

/-- What the host reads off a status, by device (43_hub_commands R233). -/
inductive View where
  | powerOff (b : Bool)
  | off
  | level (n : Nibble)
  | lidOpen (b : Bool)
  deriving DecidableEq, Repr

/-- A command as the host presents it: the word and the operand lines (30_encoding R105). -/
structure Presented where
  cmd  : Byte
  arg  : Nat
  argv : Bool
  deriving DecidableEq, Repr

end Sys2Proof
end

