-- ==== Sys2Proof/Machine/Codec.lean ====
section
/-! DEFINITION. The unit CODEC (40_codec): PARITY, DECODE, ENCODE, total functions with no state (R149). -/

namespace Sys2Proof.Machine

/-- XOR of the low `k` bits. -/
def parityBelow {w : Nat} (n : BitVec w) : Nat → Bool
  | 0     => false
  | k + 1 => Bool.xor (n.getLsbD k) (parityBelow n k)

/-- PARITY: the XOR of all bits of `n` (40_codec R140). -/
def parity {w : Nat} (n : BitVec w) : Bool := parityBelow n w

/-- DECODE: a status byte as the block reads it (40_codec R141, 30_encoding R101). Bit 7 is not read. -/
def decodeStatus (x : Byte) : HubStatus :=
  { powerOff         := x.getLsbD 0
    screenOff        := x.getLsbD 1
    lidOpen          := x.getLsbD 2
    brightness       := x.extractLsb' 3 4
    stateParity      := parity (x.extractLsb' 0 2)
    brightnessParity := parity (x.extractLsb' 3 4) }

/-- ENCODE: a status byte as the block writes it (40_codec R142, 30_encoding R102). -/
def encodeStatus (powerOff screenOff : Bool) (brightness : Nibble) : Byte :=
  let b0 : Byte := brightness.setWidth 8 <<< 3
  let b1 := if parity (b0 &&& 0x78#8) then b0 ||| 0x80#8 else b0
  let b2 := if powerOff then b1 ||| 0x01#8 else b1
  let b3 := if screenOff then b2 ||| 0x02#8 else b2
  if parity (b3 &&& 0x03#8) then b3 ||| 0x04#8 else b3

/-- ENCODE applied to a HubStatus reads three of its fields and no other (40_codec R147). -/
def encodeOf (s : HubStatus) : Byte := encodeStatus s.powerOff s.screenOff s.brightness

/-- Whether a byte is one ENCODE can produce: it survives decoding and encoding again (40_codec R145, R151). -/
def inEncodeImage (x : Byte) : Bool := encodeOf (decodeStatus x) == x

end Sys2Proof.Machine
end

