-- ==== Sys2Proof/Machine/Params.lean ====
section
/-! DEFINITION. The parameters with a value from the source (00_scope R7), as constants. -/

namespace Sys2Proof.Machine

/-- `BRIGHT_MIN`: floor of BACKLIGHT.DECREASE. -/
def brightMin : Nibble := 1#4

/-- `BRIGHT_MAX`: ceiling of BACKLIGHT.INCREASE. -/
def brightMax : Nibble := 10#4

/-- `BRIGHT_ON`: brightness set by BACKLIGHT.ON. -/
def brightOn : Nibble := 5#4

/-- `STATE_LO`: least plausible normalised state value. -/
def stateLo : Int := -4000

/-- `STATE_HI`: greatest plausible normalised state value. -/
def stateHi : Int := 4000

/-- `CHG_THRESHOLD`: normalised value at or above which the direction is Charging. -/
def chgThreshold : Int := -10

/-- `CAP_MAX`: largest plausible capacity. -/
def capMax : Word := 100#16

/-- `CHG_TIME_MAX`: largest plausible charging time, minutes. -/
def chgTimeMax : Word := 2400#16

/-- `DIS_TIME_MAX`: largest plausible discharging time, minutes. -/
def disTimeMax : Word := 1800#16

end Sys2Proof.Machine
end

