-- ==== Sys2Proof/Config.lean ====
section
/-! DEFINITION. The configuration of the block (00_scope R7) and the free values of the environment (00_scope R17).
A parameter the spec gives a fixed value stands in Machine/Params.lean; here are those it leaves OPEN or gives a default. -/

namespace Sys2Proof

/-- The parameters of 00_scope R7 that are OPEN or have a default. They are "fixed at build time and no command changes
them": the step takes them from the state's field `cfg`, which no step writes (log 3). -/
structure Config where
  /-- `MAX_ATTEMPTS`, default 20. -/
  maxAttempts      : Nat
  /-- `POLL_DELAY` in milliseconds; no rule reads it (41_poll R163, log 18). -/
  pollDelay        : Nat
  /-- `HUB_CLK`; no rule reads it (00_scope R7, log 18). -/
  hubClk           : Nat
  /-- `STATUS_REQ`, the status-request byte. -/
  statusReq        : Byte
  /-- `GAUGE_ADDR`, a device address of `ADDR_W` bits (20_memory R61, log 9). -/
  gaugeAddr        : Nat
  /-- `REG_STATE`. -/
  regState         : Byte
  /-- `REG_CAPACITY`. -/
  regCapacity      : Byte
  /-- `REG_CHARGE_TIME`. -/
  regChargeTime    : Byte
  /-- `REG_DISCHARGE_TIME`. -/
  regDischargeTime : Byte
  /-- `ZERO_FILTER_ALL`, default true. -/
  zeroFilterAll    : Bool
  /-- `ADDR_W`, default 8. -/
  addrW            : Nat
  /-- `SPK_CFG_REG`. -/
  spkCfgReg        : Byte
  /-- `SPK_CFG_OPEN`. -/
  spkCfgOpen       : ByteSeq
  /-- `SPK_CFG_CLOSE`. -/
  spkCfgClose      : ByteSeq
  /-- `MIXER_EXPECTED`. -/
  mixerExpected    : Nat
  deriving DecidableEq, Repr, Inhabited

/-- The OPEN parameters of the device at hand: no value is known (00_scope R7, log 3). -/
opaque Config.installed : Config

/-- The configuration after power-up: the defaults of 00_scope R7, and the rest as installed (log 3). -/
def Config.default : Config :=
  { Config.installed with maxAttempts := 20, pollDelay := 100, zeroFilterAll := true, addrW := 8 }

/-! The free values: the `n`-th answer the environment gives when the state holds no queued answer (00_scope R17,
decision D33, log 4). Nothing bounds them. -/

/-- A response of the hub: any byte sequence (20_memory R64). -/
opaque Config.freeHub : Nat → List Byte

/-- A gauge word, or nothing (20_memory R62). -/
opaque Config.freeGauge : Nat → Option Word

/-- The mixer's number, or no parseable result (44_speaker R253). -/
opaque Config.freeMixer : Nat → Option Nat

/-- Whether the directive source exists (44_speaker R254). -/
opaque Config.freeProbe : Nat → Bool

/-- The next directive, or `none` for `End` (44_speaker R256). -/
opaque Config.freeFetch : Nat → Option Directive

end Sys2Proof
end

