-- ==== Sys2Proof/Machine/State.lean ====
section
/-! DEFINITION. The state of the block (10_state R20): its registers as plain data, and beside them the model's own fields
(position in a micro-operation, command port, queued answers, event list, configuration). -/

namespace Sys2Proof.Machine

/-- `PH` (10_state R25). -/
inductive Phase where
  | idle
  | run
  | done
  deriving DecidableEq, Repr

/-- Where a running micro-operation of several steps stands. The two delay positions are the extra bit of 41_poll R177;
the other three hold what MIX, DIRCHK and SPKREPLAY have learnt between two of their events (44_speaker R253, R254, R256;
log 6). -/
inductive MicroPos where
  /-- The micro-operation has made no step, or is at the head of its loop over directives. -/
  | start
  /-- The last attempt was rejected and its delay has not been taken. -/
  | delayOwed
  /-- The delay has been taken; an attempt is next. -/
  | delayTaken
  /-- MIX: the mixer answered another number; the corrective call is next. -/
  | mixerSetOwed
  /-- MIX or DIRCHK: the answer calls for a failure; the `raise`, with its own event, is next (20_memory R77). -/
  | raiseOwed
  /-- SPKREPLAY: `d` was fetched and matches; its write is next. -/
  | directiveHeld (d : Directive)
  deriving DecidableEq, Repr

/-- `RES`, the result record (10_state R32). -/
structure Res where
  valid    : Bool
  err      : BitVec 3
  attempts : Nat
  payload  : Payload
  deriving DecidableEq, Repr

/-- The event alphabet (20_memory R77). `result` carries the whole of `RES` (log 17). -/
inductive Event where
  | opened (b : Bus)
  | hubXfer (tx : Byte) (rx : List Byte)
  | regRead (addr : Nat) (reg : Byte) (n : Nat) (v : Option Word)
  | regWrite (addr : Nat) (reg : Byte) (bytes : ByteSeq)
  | delay
  | mixerQuery (v : Option Nat)
  | mixerSet (n : Nat)
  | dirProbe (present : Bool)
  | dirFetch (d : Option Directive)
  | result (r : Res)
  deriving DecidableEq, Repr

/-- The answers the environment will give, oldest first, one queue for each kind of transaction; where a queue is empty the
answer is the free value of Config at `drawn`, which then goes up by one (00_scope R17, log 4). -/
structure Answers where
  hub   : List (List Byte)
  gauge : List (Option Word)
  mixer : List (Option Nat)
  probe : List Bool
  fetch : List (Option Directive)
  drawn : Nat
  deriving DecidableEq, Repr

/-- The whole state of the block. -/
structure State where
  /-- `PH`. -/
  ph      : Phase
  /-- `CMD`. -/
  cmd     : Byte
  /-- `ARG`, a number of `ADDR_W` bits (log 9). -/
  arg     : Nat
  /-- `ARGV`. -/
  argv    : Bool
  /-- `UPC`. -/
  upc     : Nat
  /-- `ATT`. -/
  att     : Nat
  /-- `S`. -/
  status  : HubStatus
  /-- `RXB`. -/
  rxb     : Byte
  /-- `TXB`. -/
  txb     : Byte
  /-- `RAW`. -/
  raw     : Word
  /-- `NORM`. -/
  norm    : Int
  /-- `DIR`. -/
  dir     : Direction
  /-- `APPLIED`. -/
  applied : Nat
  /-- `HUB_OPEN`. -/
  hubOpen : Bool
  /-- `REG_OPEN`. -/
  regOpen : Bool
  /-- `RES`. -/
  res     : Res
  /-- The model's own: position in the running micro-operation (log 6). -/
  pos     : MicroPos
  /-- The model's own: the command the host presents, if any (log 8). -/
  port    : Option Presented
  /-- The model's own: the environment's answers (log 4). -/
  answers : Answers
  /-- The model's own: the events of this invocation, oldest first (log 7). -/
  events  : List Event
  /-- The model's own: the configuration, which no step writes (log 3). -/
  cfg     : Config
  deriving DecidableEq, Repr

/-- What stops the machine. The spec gives the block no such stop: its four failures are next states (60_exceptions R278).
Both faults are raised in states that no run from reset reaches (log 10). -/
inductive Fault where
  /-- Raised by the meaning of a command in `PH = RUN` when `UPC` is beyond the command's list. Safe. -/
  | noMicroOperation
  /-- Raised by `step` in `PH = RUN` when `CMD` holds a reserved word. Safe. -/
  | reservedCommandLatched
  deriving DecidableEq, Repr

/-- Why an instruction has no meaning here. -/
inductive Refusal where
  /-- Raised by an arm of `exec` for an instruction not yet modelled; no arm is one now. Safe. -/
  | notModelled (mnemonic : String)
  deriving DecidableEq, Repr

/-- `S` at reset: the spec gives no value (10_state R39); DESIGN CHOICE, log 5. -/
def HubStatus.zero : HubStatus := ⟨false, false, false, 0#4, false, false⟩

/-- `RES` at reset: `valid` is false; the other fields have no value in the spec (10_state R39); DESIGN CHOICE, log 5. -/
def Res.empty : Res := ⟨false, 0#3, 0, .applied 0⟩

/-- No queued answer (log 4). -/
def Answers.none : Answers := ⟨[], [], [], [], [], 0⟩

/-- The state right after reset (10_state R39, 70_reset R310). `CMD`, `ARG`, `ARGV`, `S`, `RXB`, `TXB`, `RAW`, `NORM` and
all of `RES` but `valid` have no value in the spec: DESIGN CHOICE zero, log 5. -/
def State.reset : State :=
  { ph := .idle, cmd := 0#8, arg := 0, argv := false, upc := 0, att := 0, status := HubStatus.zero
    rxb := 0#8, txb := 0#8, raw := 0#16, norm := 0, dir := .unknown, applied := 0
    hubOpen := false, regOpen := false, res := Res.empty, pos := .start, port := Option.none
    answers := Answers.none, events := [], cfg := Config.default }

end Sys2Proof.Machine
end

