-- ==== Sys2Proof/Machine/Flags.lean ====
section
/-! DEFINITION. What the block computes from a value it has read: the plausibility predicates (41_poll R166 to R170), the
sign normalisation and the direction (42_battery R190, R191), the result codes (60_exceptions R275), the payload kinds
(30_encoding R118) and the host's view (43_hub_commands R233). -/

namespace Sys2Proof.Machine

/-- OK_HUB, as the byte it accepts: the response is non-empty and its first byte is not zero (41_poll R166). -/
def okHub (rx : List Byte) : Option Byte :=
  match rx with
  | []     => none
  | b :: _ => if b = 0#8 then none else some b

/-- NORMALISE (42_battery R190). -/
def normalise (raw : Word) : Int :=
  if raw.getLsbD 15 then -(((~~~raw &&& 0xFFFF#16).toNat : Int) + 1) else (raw.toNat : Int)

/-- OK_STATE (41_poll R167). -/
def okState (raw : Word) : Bool := decide (stateLo ≤ normalise raw) && decide (normalise raw ≤ stateHi)

/-- OK_CAP, unsigned (41_poll R168). -/
def okCap (raw : Word) : Bool := decide (raw.toNat ≤ capMax.toNat)

/-- OK_CHG_TIME, unsigned (41_poll R169). -/
def okChgTime (raw : Word) : Bool := decide (raw.toNat ≤ chgTimeMax.toNat)

/-- OK_DIS_TIME, unsigned (41_poll R169). -/
def okDisTime (raw : Word) : Bool := decide (raw.toNat ≤ disTimeMax.toNat)

/-- The predicate that belongs to each gauge register (41_poll R176). -/
def okGauge : GaugeReg → Word → Bool
  | .state,         raw => okState raw
  | .capacity,      raw => okCap raw
  | .chargeTime,    raw => okChgTime raw
  | .dischargeTime, raw => okDisTime raw

/-- Whether a zero word of this register is treated as no reading (41_poll R170). -/
def zeroFiltered (zeroFilterAll : Bool) : GaugeReg → Bool
  | .capacity => true
  | .state | .chargeTime | .dischargeTime => zeroFilterAll

/-- GAUGE_OP's filter (41_poll R170): a zero word becomes `none` where the filter applies. -/
def gaugeFilter (zeroFilterAll : Bool) (r : GaugeReg) (v : Option Word) : Option Word :=
  if v = some 0#16 ∧ zeroFiltered zeroFilterAll r = true then none else v

/-- A gauge answer as the word it is accepted as: filtered, then judged (41_poll R170, R171, R176). -/
def acceptGauge (zeroFilterAll : Bool) (r : GaugeReg) (v : Option Word) : Option Word :=
  match gaugeFilter zeroFilterAll r v with
  | none     => none
  | some raw => if okGauge r raw then some raw else none

/-- The direction of a normalised state value (42_battery R191). -/
def directionOf (n : Int) : Direction := if chgThreshold ≤ n then .charging else .discharging

/-- `RES.err` of each failure (60_exceptions R275). -/
def failureCode : Failure → BitVec 3
  | .busFailure _     => 1#3
  | .configMissing    => 2#3
  | .mixerQueryFailed => 3#3
  | .invalidArgument  => 4#3

/-- What a result record says: the payload when `err` is 0, `attempts` when it is BusFailure (10_state R32). -/
def Res.report (r : Res) : Report :=
  match r.err.toNat with
  | 0 => .ok r.payload
  | 1 => .failed (.busFailure r.attempts)
  | 2 => .failed .configMissing
  | 3 => .failed .mixerQueryFailed
  | 4 => .failed .invalidArgument
  | _ => .unassigned r.err

/-- The record after FIN (30_encoding R118). -/
def Res.ok (r : Res) (p : Payload) : Res := { r with valid := true, err := 0#3, payload := p }

/-- The record after a `raise` (60_exceptions R278): `attempts` is written for BusFailure only. -/
def Res.fail (r : Res) (f : Failure) : Res :=
  match f with
  | .busFailure n     => { r with valid := true, err := failureCode f, attempts := n }
  | .configMissing    => { r with valid := true, err := failureCode f }
  | .mixerQueryFailed => { r with valid := true, err := failureCode f }
  | .invalidArgument  => { r with valid := true, err := failureCode f }

/-- The number of a payload's kind (30_encoding R118). -/
def payloadKind : Payload → Nat
  | .direction _ => 0
  | .capacity _  => 1
  | .time _ _    => 2
  | .status _ _  => 3
  | .applied _   => 4

/-- VIEW (43_hub_commands R233): what the host prints of a status, for the commands that have one. -/
def viewOf (i : Instr) (s : HubStatus) : Option View :=
  match i with
  | .systemState | .systemOff => some (.powerOff s.powerOff)
  | .backlightState | .backlight1 | .backlight2 | .backlight3 | .backlight4 | .backlight5 | .backlight6
  | .backlight7 | .backlight8 | .backlight9 | .backlight10 | .backlightIncrease | .backlightDecrease
  | .backlightOn | .backlightOff => some (if s.screenOff then .off else .level s.brightness)
  | .lidState => some (.lidOpen s.lidOpen)
  | .batteryState | .batteryCapacity | .batteryTime | .speakerLeft | .speakerRight | .speakerMono => none

end Sys2Proof.Machine
end

