-- ==== Sys2Proof/Decode.lean ====
section
/-! DEFINITION. Decoding the command word CMD8 (30_encoding R105, R106, R108) and, after it, the encoder. -/

namespace Sys2Proof

/-- Why a word is no command (30_encoding R108 (a)): no such device, or no such command of that device. -/
inductive Reserved where
  | device (dev : Nibble)
  | operation (dev op : Nibble)
  deriving DecidableEq, Repr

/-- `dev`, bits 7:4 of CMD8 (30_encoding R105). -/
def devField (w : Byte) : Nibble := w.extractLsb' 4 4

/-- `op`, bits 3:0 of CMD8 (30_encoding R105); for BACKLIGHT.N it is the level N (R116). -/
def opField (w : Byte) : Nibble := w.extractLsb' 0 4

/-- The battery commands: `dev = 0` (30_encoding R106). -/
def decodeBattery (op : Nibble) : Except Reserved Instr :=
  match op.toNat with
  | 0 => .ok .batteryState
  | 1 => .ok .batteryCapacity
  | 2 => .ok .batteryTime
  | _ => .error (.operation 0#4 op)

/-- The system commands: `dev = 1` (30_encoding R106). -/
def decodeSystem (op : Nibble) : Except Reserved Instr :=
  match op.toNat with
  | 0 => .ok .systemState
  | 1 => .ok .systemOff
  | _ => .error (.operation 1#4 op)

/-- The backlight commands: `dev = 2` (30_encoding R106); `op = 15` is reserved (R108). -/
def decodeBacklight (op : Nibble) : Except Reserved Instr :=
  match op.toNat with
  | 0  => .ok .backlightState
  | 1  => .ok .backlight1
  | 2  => .ok .backlight2
  | 3  => .ok .backlight3
  | 4  => .ok .backlight4
  | 5  => .ok .backlight5
  | 6  => .ok .backlight6
  | 7  => .ok .backlight7
  | 8  => .ok .backlight8
  | 9  => .ok .backlight9
  | 10 => .ok .backlight10
  | 11 => .ok .backlightIncrease
  | 12 => .ok .backlightDecrease
  | 13 => .ok .backlightOn
  | 14 => .ok .backlightOff
  | _  => .error (.operation 2#4 op)

/-- The lid command: `dev = 3` (30_encoding R106). -/
def decodeLid (op : Nibble) : Except Reserved Instr :=
  match op.toNat with
  | 0 => .ok .lidState
  | _ => .error (.operation 3#4 op)

/-- The speaker commands: `dev = 4` (30_encoding R106). -/
def decodeSpeaker (op : Nibble) : Except Reserved Instr :=
  match op.toNat with
  | 0 => .ok .speakerLeft
  | 1 => .ok .speakerRight
  | 2 => .ok .speakerMono
  | _ => .error (.operation 4#4 op)

/-- The command a word stands for, or why it is reserved (30_encoding R106, R108). -/
def decodeWord (w : Byte) : Except Reserved Instr :=
  match (devField w).toNat with
  | 0 => decodeBattery (opField w)
  | 1 => decodeSystem (opField w)
  | 2 => decodeBacklight (opField w)
  | 3 => decodeLid (opField w)
  | 4 => decodeSpeaker (opField w)
  | _ => .error (.device (devField w))

/-- The same, with the reason for a rejection dropped. -/
def decodeCommand (w : Byte) : Option Instr :=
  match decodeWord w with
  | .ok i    => some i
  | .error _ => none

/-- The word of each command, from the column CMD of 30_encoding R106. -/
def encode : Instr → Byte
  | .batteryState      => 0x00#8
  | .batteryCapacity   => 0x01#8
  | .batteryTime       => 0x02#8
  | .systemState       => 0x10#8
  | .systemOff         => 0x11#8
  | .backlightState    => 0x20#8
  | .backlight1        => 0x21#8
  | .backlight2        => 0x22#8
  | .backlight3        => 0x23#8
  | .backlight4        => 0x24#8
  | .backlight5        => 0x25#8
  | .backlight6        => 0x26#8
  | .backlight7        => 0x27#8
  | .backlight8        => 0x28#8
  | .backlight9        => 0x29#8
  | .backlight10       => 0x2A#8
  | .backlightIncrease => 0x2B#8
  | .backlightDecrease => 0x2C#8
  | .backlightOn       => 0x2D#8
  | .backlightOff      => 0x2E#8
  | .lidState          => 0x30#8
  | .speakerLeft       => 0x40#8
  | .speakerRight      => 0x41#8
  | .speakerMono       => 0x42#8

/-- The textual form of each command (30_encoding R111). -/
def mnemonic : Instr → String
  | .batteryState      => "BATTERY.STATE"
  | .batteryCapacity   => "BATTERY.CAPACITY"
  | .batteryTime       => "BATTERY.TIME"
  | .systemState       => "SYSTEM.STATE"
  | .systemOff         => "SYSTEM.OFF"
  | .backlightState    => "BACKLIGHT.STATE"
  | .backlight1        => "BACKLIGHT.1"
  | .backlight2        => "BACKLIGHT.2"
  | .backlight3        => "BACKLIGHT.3"
  | .backlight4        => "BACKLIGHT.4"
  | .backlight5        => "BACKLIGHT.5"
  | .backlight6        => "BACKLIGHT.6"
  | .backlight7        => "BACKLIGHT.7"
  | .backlight8        => "BACKLIGHT.8"
  | .backlight9        => "BACKLIGHT.9"
  | .backlight10       => "BACKLIGHT.10"
  | .backlightIncrease => "BACKLIGHT.INCREASE"
  | .backlightDecrease => "BACKLIGHT.DECREASE"
  | .backlightOn       => "BACKLIGHT.ON"
  | .backlightOff      => "BACKLIGHT.OFF"
  | .lidState          => "LID.STATE"
  | .speakerLeft       => "SPEAKER.LEFT"
  | .speakerRight      => "SPEAKER.RIGHT"
  | .speakerMono       => "SPEAKER.MONO"

/-- The command read from a word of `nbits` bits numbered as spec/opcode_table.json numbers them. -/
def decodeTableWord (nbits w : Nat) : Option Instr :=
  decodeCommand (BitVec.ofNat 8 (w % 2 ^ nbits))

end Sys2Proof
end

