-- ==== Sys2Proof/Machine/Operands.lean ====
section
/-! DEFINITION. Where a command's operands come from: the operand lines (30_encoding R107), the level in the command word
(R116), the mode of a speaker command (R117), the number of a gauge register (20_memory R70). -/

namespace Sys2Proof.Machine

/-- A device address of the register bus: `ADDR_W` bits, unchanged where it fits them (20_memory R61, log 9). -/
def busAddress (c : Config) (a : Nat) : Nat := a % 2 ^ c.addrW

/-- `ARG` as it is latched: the operand lines are `ADDR_W` wide (30_encoding R107). -/
def latchArg (c : Config) (arg : Nat) : Nat := busAddress c arg

/-- The address the gauge is read at: `GAUGE_ADDR` (20_memory R70). -/
def gaugeAddress (c : Config) : Nat := busAddress c c.gaugeAddr

/-- Whether the command must come with an operand: the speaker commands (30_encoding R107, R108 (b)). -/
def needsOperand (i : Instr) : Bool :=
  match i with
  | .speakerLeft | .speakerRight | .speakerMono => true
  | .batteryState | .batteryCapacity | .batteryTime | .systemState | .systemOff | .backlightState | .backlight1
  | .backlight2 | .backlight3 | .backlight4 | .backlight5 | .backlight6 | .backlight7 | .backlight8 | .backlight9
  | .backlight10 | .backlightIncrease | .backlightDecrease | .backlightOn | .backlightOff | .lidState => false

/-- The level N of BACKLIGHT.N: `CMD[3:0]` of its word (30_encoding R116). -/
def levelOf (i : Instr) : Nibble := opField (encode i)

/-- Whether a directive is written under a mode: it is tagged ALWAYS or with the mode (44_speaker R256). -/
def tagMatches (mode : Tag) (d : Directive) : Bool := decide (d.tag = Tag.always) || decide (d.tag = mode)

/-- The register number of each gauge register (20_memory R70). -/
def gaugeNumber (c : Config) : GaugeReg → Byte
  | .state         => c.regState
  | .capacity      => c.regCapacity
  | .chargeTime    => c.regChargeTime
  | .dischargeTime => c.regDischargeTime

/-- The time register BATTERY.TIME reads: by `DIR`, the charging one when Charging, else the other (42_battery R194). -/
def timeRegister (d : Direction) : GaugeReg :=
  match d with
  | .charging => .chargeTime
  | .discharging | .unknown => .dischargeTime

end Sys2Proof.Machine
end

