-- ==== Sys2Proof/Machine/Ops.lean ====
section
/-! DEFINITION. The operations every command is made of: emitting an event, taking an answer of the environment, opening a
bus, raising a failure, delivering a result, accepting a command, one step of a poll, and the running of a command as a list
of micro-operations. -/

namespace Sys2Proof.Machine

/-- The event `e` happens (20_memory R77). -/
def State.emit (s : State) (e : Event) : State := { s with events := s.events ++ [e] }

/-- The end of a micro-operation that does not raise: `UPC <- UPC + 1` (10_state R25). -/
def State.advance (s : State) : State := { s with upc := s.upc + 1, pos := .start }

/-- A micro-operation goes on at another of its positions. -/
def State.goTo (s : State) (p : MicroPos) : State := { s with pos := p }

/-- Whether a bus handle is open: `HUB_OPEN` or `REG_OPEN` (10_state R37). -/
def State.isOpen (s : State) (b : Bus) : Bool :=
  match b with
  | .hub => s.hubOpen
  | .reg => s.regOpen

/-- Opening a bus handle, a step of its own (20_memory R76). It cannot fail (10_state R37). -/
def State.openBus (s : State) (b : Bus) : State :=
  match b with
  | .hub => { s with hubOpen := true, events := s.events ++ [.opened .hub] }
  | .reg => { s with regOpen := true, events := s.events ++ [.opened .reg] }

/-- A step that makes a transaction on bus `b`: the handle is opened first, by a step of its own (20_memory R76). -/
def onBus (b : Bus) (transaction : State → State) (s : State) : State :=
  if s.isOpen b then transaction s else s.openBus b

/-- A `raise` (60_exceptions R278): `RES`, `PH` and the `Result` event, and no other register. -/
def raise (f : Failure) (s : State) : State :=
  { s with res := s.res.fail f, ph := .done, pos := .start, events := s.events ++ [.result (s.res.fail f)] }

/-- FIN with the payload `p` (30_encoding R118). -/
def finish (p : Payload) (s : State) : State :=
  { s with res := s.res.ok p, ph := .done, pos := .start, events := s.events ++ [.result (s.res.ok p)] }

/-! ### The answers of the environment (00_scope R17, log 4) -/

/-- The next response of the hub, and the state after it. -/
def drawHub (s : State) : List Byte × State :=
  match s.answers.hub with
  | a :: rest => (a, { s with answers := { s.answers with hub := rest } })
  | []        => (Config.freeHub s.answers.drawn, { s with answers := { s.answers with drawn := s.answers.drawn + 1 } })

/-- The next answer of the gauge, and the state after it. -/
def drawGauge (s : State) : Option Word × State :=
  match s.answers.gauge with
  | a :: rest => (a, { s with answers := { s.answers with gauge := rest } })
  | []        => (Config.freeGauge s.answers.drawn, { s with answers := { s.answers with drawn := s.answers.drawn + 1 } })

/-- The next answer of the mixer, and the state after it. -/
def drawMixer (s : State) : Option Nat × State :=
  match s.answers.mixer with
  | a :: rest => (a, { s with answers := { s.answers with mixer := rest } })
  | []        => (Config.freeMixer s.answers.drawn, { s with answers := { s.answers with drawn := s.answers.drawn + 1 } })

/-- The next answer to a directive probe, and the state after it. -/
def drawProbe (s : State) : Bool × State :=
  match s.answers.probe with
  | a :: rest => (a, { s with answers := { s.answers with probe := rest } })
  | []        => (Config.freeProbe s.answers.drawn, { s with answers := { s.answers with drawn := s.answers.drawn + 1 } })

/-- The next directive, `none` for `End`, and the state after it. -/
def drawFetch (s : State) : Option Directive × State :=
  match s.answers.fetch with
  | a :: rest => (a, { s with answers := { s.answers with fetch := rest } })
  | []        => (Config.freeFetch s.answers.drawn, { s with answers := { s.answers with drawn := s.answers.drawn + 1 } })

/-! ### POLL (41_poll R161, R177) -/

/-- An attempt step (41_poll R177): `ATT <- ATT + 1`, the transaction, the test. An accepted value completes the
micro-operation in the same step; a rejected one owes a delay, or raises BusFailure when the budget is spent. -/
def attempt {α : Type} (b : Bus) (op : State → Option α × State) (accept : α → State → State) (s : State) : State :=
  onBus b (fun u =>
    match op { u with att := u.att + 1 } with
    | (some v, t) => (accept v t).advance
    | (none, t)   =>
      if t.att < t.cfg.maxAttempts then t.goTo .delayOwed else raise (.busFailure t.cfg.maxAttempts) t) s

/-- One step of a poll (41_poll R161, R177): `ATT` is written to 0 at its start, a delay stands before every further
attempt. With `MAX_ATTEMPTS = 0` the loop makes no transaction and raises BusFailure(0) (D17, log 13). -/
def pollStep {α : Type} (b : Bus) (op : State → Option α × State) (accept : α → State → State) (s : State) : State :=
  match s.pos with
  | .delayOwed =>
    if s.att < s.cfg.maxAttempts then (s.emit .delay).goTo .delayTaken else raise (.busFailure s.cfg.maxAttempts) s
  | .delayTaken => attempt b op accept s
  | .start | .mixerSetOwed | .raiseOwed | .directiveHeld _ =>
    if 0 < s.cfg.maxAttempts then attempt b op accept { s with att := 0 }
    else raise (.busFailure s.cfg.maxAttempts) { s with att := 0 }

/-- One transfer on the shift-register bus, judged by OK_HUB (20_memory R64, 41_poll R166). -/
def hubTransfer (tx : Byte) (s : State) : Option Byte × State :=
  (okHub (drawHub s).1, (drawHub s).2.emit (.hubXfer tx (drawHub s).1))

/-- One read of a gauge register, filtered and judged (20_memory R62, 41_poll R170, R176). -/
def gaugeRead (r : GaugeReg) (s : State) : Option Word × State :=
  (acceptGauge s.cfg.zeroFilterAll r (drawGauge s).1,
    (drawGauge s).2.emit (.regRead (gaugeAddress s.cfg) (gaugeNumber s.cfg r) 2 (drawGauge s).1))

/-- HGET's writes: the byte, and all six fields of `S` from it (41_poll R174, 40_codec R143). -/
def takeStatus (b : Byte) (s : State) : State := { s with rxb := b, status := decodeStatus b }

/-- HGET, the status read (41_poll R174). -/
def hget (s : State) : State := pollStep .hub (hubTransfer s.cfg.statusReq) takeStatus s

/-- Whether a poll of the running micro-operation has made an attempt. -/
def State.inPoll (s : State) : Bool :=
  match s.pos with
  | .delayOwed | .delayTaken => true
  | .start | .mixerSetOwed | .raiseOwed | .directiveHeld _ => false

/-- `TXB <- ENCODE(S)` before the first attempt of HSET, and not again (41_poll R175). -/
def loadTxb (s : State) : State := if s.inPoll then s else { s with txb := encodeOf s.status }

/-- HSET, the status write (41_poll R175): the response is judged and dropped. -/
def hset (s : State) : State := pollStep .hub (hubTransfer (loadTxb s).txb) (fun _ t => t) (loadTxb s)

/-- GRD, the gauge register read (41_poll R176). -/
def grd (r : GaugeReg) (s : State) : State := pollStep .reg (gaugeRead r) (fun v t => { t with raw := v }) s

/-- One write on the register bus at the address `ARG` (20_memory R63), unpolled (44_speaker R258). -/
def regWrite (reg : Byte) (bytes : ByteSeq) (s : State) : State := s.emit (.regWrite s.arg reg bytes)

/-! ### Commands -/

/-- Latching a presented command (30_encoding R105), the port being then free again (log 8). -/
def latch (p : Presented) (s : State) : State :=
  { s with cmd := p.cmd, arg := latchArg s.cfg p.arg, argv := p.argv, upc := 0, pos := .start, port := none }

/-- Acceptance of the command `i` as presented by `p`: the latch, then the command check (30_encoding R105, R108 (b)). -/
def acceptAs (i : Instr) (p : Presented) (s : State) : State :=
  if needsOperand i && !p.argv then raise .invalidArgument (latch { p with cmd := encode i } s)
  else { latch { p with cmd := encode i } s with ph := .run }

/-- Acceptance of a reserved word: it is latched and the command check raises InvalidArgument (30_encoding R108 (a)). -/
def acceptReserved (p : Presented) (s : State) : State := raise .invalidArgument (latch p s)

/-- One step of the command `i`, whose micro-operations are `list` (30_encoding R112): acceptance when a command is
presented to the idle block, the micro-operation at `UPC` while it runs, nothing once it is done (10_state R25). -/
def runCommand (i : Instr) (list : List (State → State)) (s : State) : Host.Outcome State Fault Refusal :=
  match s.ph with
  | .idle =>
    match s.port with
    | some p => .next (acceptAs i p s)
    | none   => .next s
  | .run =>
    match list[s.upc]? with
    | some m => .next (m s)
    | none   => .fault .noMicroOperation
  | .done => .next s

/-- The word the block works on: the presented one when idle, the latched one when it runs (30_encoding R105). -/
def currentWord (s : State) : Option Byte :=
  match s.ph with
  | .idle => s.port.map Presented.cmd
  | .run  => some s.cmd
  | .done => none

/-- A step with no word to work on: the idle block waits (70_reset R311), and nothing runs after the result (00_scope R19,
10_state R25); a command presented then is ignored (30_encoding R105, log 11). -/
def quietStep (s : State) : Host.Outcome State Fault Refusal := .next s

/-- A step on a reserved word: at acceptance the command check (30_encoding R108); running, there is no rule (log 10). -/
def reservedStep (s : State) : Host.Outcome State Fault Refusal :=
  match s.ph with
  | .idle =>
    match s.port with
    | some p => .next (acceptReserved p s)
    | none   => .next s
  | .run  => .fault .reservedCommandLatched
  | .done => .next s

/-! ### Moves of the host (20_memory R78) -/

/-- The host presents a command at the port (20_memory R78 (1)). -/
def present (p : Presented) (s : State) : State := { s with port := some p }

/-- The host resets the block before the next command (20_memory R78 (5), 70_reset R310): every register goes to its reset
value; the configuration and the environment stay. There is no such move while a command runs (U9, log 21). -/
def hostReset (s : State) : State :=
  match s.ph with
  | .run  => s
  | .idle => { State.reset with cfg := s.cfg, answers := s.answers }
  | .done => { State.reset with cfg := s.cfg, answers := s.answers }

end Sys2Proof.Machine
end

