-- ==== Sys2Proof/Machine/Battery.lean ====
section
/-! DEFINITION. The battery commands (42_battery): CLS and the three lists of micro-operations (30_encoding R112). -/

namespace Sys2Proof.Machine

/-- CLS, classify (42_battery R191). -/
def classify (s : State) : State :=
  ({ s with norm := normalise s.raw, dir := directionOf (normalise s.raw) } : State).advance

/-- Step 2 of BATTERY.TIME: the register and its bound follow `DIR` (42_battery R194). -/
def grdTime (s : State) : State := grd (timeRegister s.dir) s

/-- FIN of BATTERY.STATE: `Direction(DIR)` (30_encoding R118). -/
def finDirection (s : State) : State := finish (.direction s.dir) s

/-- FIN of BATTERY.CAPACITY: `Capacity(RAW)` (30_encoding R118). -/
def finCapacity (s : State) : State := finish (.capacity s.raw) s

/-- FIN of BATTERY.TIME: `Time(DIR, RAW)` (30_encoding R118). -/
def finTime (s : State) : State := finish (.time s.dir s.raw) s

/-- BATTERY.STATE (42_battery R192). -/
def execBatteryState (s : State) : Host.Outcome State Fault Refusal :=
  runCommand .batteryState [grd .state, classify, finDirection] s

/-- BATTERY.CAPACITY (42_battery R193). -/
def execBatteryCapacity (s : State) : Host.Outcome State Fault Refusal :=
  runCommand .batteryCapacity [grd .capacity, finCapacity] s

/-- BATTERY.TIME (42_battery R194). -/
def execBatteryTime (s : State) : Host.Outcome State Fault Refusal :=
  runCommand .batteryTime [grd .state, classify, grdTime, finTime] s

end Sys2Proof.Machine
end

