-- ==== Sys2Proof/Machine/Hub.lean ====
section
/-! DEFINITION. The hub commands (43_hub_commands): system, backlight and lid. -/

namespace Sys2Proof.Machine

/-- FIN of a hub command: `Status(RXB, S)` (30_encoding R118). -/
def finStatus (s : State) : State := finish (.status s.rxb s.status) s

/-- The end of a MUT that has something to send: `UPC <- 2` (43_hub_commands R214 to R220). -/
def mutTo (h : HubStatus) (s : State) : State := { s with status := h, upc := 2, pos := .start }

/-- The end of a MUT that has nothing to send: `UPC <- 5`, `S` as read (43_hub_commands R216, R236). -/
def mutSkip (s : State) : State := { s with upc := 5, pos := .start }

/-- MUT of SYSTEM.OFF (43_hub_commands R214). -/
def mutPowerOff (s : State) : State := mutTo { s.status with powerOff := true } s

/-- MUT of BACKLIGHT.INCREASE: the literal test `brightness < BRIGHT_MAX` (43_hub_commands R216). -/
def mutIncrease (s : State) : State :=
  if s.status.brightness.toNat < brightMax.toNat then
    mutTo { s.status with screenOff := false, brightness := s.status.brightness + 1#4 } s
  else mutSkip s

/-- MUT of BACKLIGHT.DECREASE: the literal test `brightness > BRIGHT_MIN` (43_hub_commands R217). -/
def mutDecrease (s : State) : State :=
  if brightMin.toNat < s.status.brightness.toNat then
    mutTo { s.status with screenOff := false, brightness := s.status.brightness - 1#4 } s
  else mutSkip s

/-- MUT of BACKLIGHT.ON and BACKLIGHT.N: the screen on at a level (43_hub_commands R218, R220). -/
def mutLevel (n : Nibble) (s : State) : State := mutTo { s.status with screenOff := false, brightness := n } s

/-- MUT of BACKLIGHT.OFF (43_hub_commands R219). -/
def mutScreenOff (s : State) : State := mutTo { s.status with screenOff := true } s

/-- The list of a read-only hub command (43_hub_commands R210, R211). -/
def readList : List (State → State) := [hget, finStatus]

/-- The list of a mutating hub command with the mutation `m` (43_hub_commands R210, R212). -/
def mutatingList (m : State → State) : List (State → State) := [hget, m, hset, hget, hget, finStatus]

/-- SYSTEM.STATE (43_hub_commands R213). -/
def execSystemState (s : State) : Host.Outcome State Fault Refusal := runCommand .systemState readList s

/-- SYSTEM.OFF (43_hub_commands R214). -/
def execSystemOff (s : State) : Host.Outcome State Fault Refusal := runCommand .systemOff (mutatingList mutPowerOff) s

/-- BACKLIGHT.STATE (43_hub_commands R215). -/
def execBacklightState (s : State) : Host.Outcome State Fault Refusal := runCommand .backlightState readList s

/-- BACKLIGHT.1 (43_hub_commands R220). -/
def execBacklight1 (s : State) : Host.Outcome State Fault Refusal :=
  runCommand .backlight1 (mutatingList (mutLevel (levelOf .backlight1))) s

/-- BACKLIGHT.2 (43_hub_commands R220). -/
def execBacklight2 (s : State) : Host.Outcome State Fault Refusal :=
  runCommand .backlight2 (mutatingList (mutLevel (levelOf .backlight2))) s

/-- BACKLIGHT.3 (43_hub_commands R220). -/
def execBacklight3 (s : State) : Host.Outcome State Fault Refusal :=
  runCommand .backlight3 (mutatingList (mutLevel (levelOf .backlight3))) s

/-- BACKLIGHT.4 (43_hub_commands R220). -/
def execBacklight4 (s : State) : Host.Outcome State Fault Refusal :=
  runCommand .backlight4 (mutatingList (mutLevel (levelOf .backlight4))) s

/-- BACKLIGHT.5 (43_hub_commands R220). -/
def execBacklight5 (s : State) : Host.Outcome State Fault Refusal :=
  runCommand .backlight5 (mutatingList (mutLevel (levelOf .backlight5))) s

/-- BACKLIGHT.6 (43_hub_commands R220). -/
def execBacklight6 (s : State) : Host.Outcome State Fault Refusal :=
  runCommand .backlight6 (mutatingList (mutLevel (levelOf .backlight6))) s

/-- BACKLIGHT.7 (43_hub_commands R220). -/
def execBacklight7 (s : State) : Host.Outcome State Fault Refusal :=
  runCommand .backlight7 (mutatingList (mutLevel (levelOf .backlight7))) s

/-- BACKLIGHT.8 (43_hub_commands R220). -/
def execBacklight8 (s : State) : Host.Outcome State Fault Refusal :=
  runCommand .backlight8 (mutatingList (mutLevel (levelOf .backlight8))) s

/-- BACKLIGHT.9 (43_hub_commands R220). -/
def execBacklight9 (s : State) : Host.Outcome State Fault Refusal :=
  runCommand .backlight9 (mutatingList (mutLevel (levelOf .backlight9))) s

/-- BACKLIGHT.10 (43_hub_commands R220). -/
def execBacklight10 (s : State) : Host.Outcome State Fault Refusal :=
  runCommand .backlight10 (mutatingList (mutLevel (levelOf .backlight10))) s

/-- BACKLIGHT.INCREASE (43_hub_commands R216). -/
def execBacklightIncrease (s : State) : Host.Outcome State Fault Refusal :=
  runCommand .backlightIncrease (mutatingList mutIncrease) s

/-- BACKLIGHT.DECREASE (43_hub_commands R217). -/
def execBacklightDecrease (s : State) : Host.Outcome State Fault Refusal :=
  runCommand .backlightDecrease (mutatingList mutDecrease) s

/-- BACKLIGHT.ON (43_hub_commands R218). -/
def execBacklightOn (s : State) : Host.Outcome State Fault Refusal :=
  runCommand .backlightOn (mutatingList (mutLevel brightOn)) s

/-- BACKLIGHT.OFF (43_hub_commands R219). -/
def execBacklightOff (s : State) : Host.Outcome State Fault Refusal :=
  runCommand .backlightOff (mutatingList mutScreenOff) s

/-- LID.STATE (43_hub_commands R221). -/
def execLidState (s : State) : Host.Outcome State Fault Refusal := runCommand .lidState readList s

end Sys2Proof.Machine
end

