-- ==== Sys2Proof/Machine/Speaker.lean ====
section
/-! DEFINITION. The speaker commands (44_speaker): MIX, DIRCHK, SPKOPEN, SPKREPLAY, SPKCLOSE and their list. -/

namespace Sys2Proof.Machine

/-- What MIX does with the mixer's answer (44_speaker R253): no number is a failure, another number a corrective call, each in
a step of its own (20_memory R77). -/
def judgeMixer (v : Option Nat) (s : State) : State :=
  match v with
  | none   => s.goTo .raiseOwed
  | some n => if n = s.cfg.mixerExpected then s.advance else s.goTo .mixerSetOwed

/-- MIX, the audio-routing precondition (44_speaker R253): the query, then, in a step of its own, the corrective call or the
`raise`. -/
def mix (s : State) : State :=
  match s.pos with
  | .mixerSetOwed => (s.emit (.mixerSet s.cfg.mixerExpected)).advance
  | .raiseOwed => raise .mixerQueryFailed s
  | .start | .delayOwed | .delayTaken | .directiveHeld _ =>
    judgeMixer (drawMixer s).1 ((drawMixer s).2.emit (.mixerQuery (drawMixer s).1))

/-- What DIRCHK does with the host's answer (44_speaker R254): a missing source is a failure, in a step of its own (20_memory
R77). -/
def judgeProbe (present : Bool) (s : State) : State :=
  match present with
  | true  => s.advance
  | false => s.goTo .raiseOwed

/-- DIRCHK, the directive source check (44_speaker R254): the probe, then, in a step of its own, the `raise` if there is one. -/
def dirchk (s : State) : State :=
  match s.pos with
  | .raiseOwed => raise .configMissing s
  | .start | .delayOwed | .delayTaken | .mixerSetOwed | .directiveHeld _ =>
    judgeProbe (drawProbe s).1 ((drawProbe s).2.emit (.dirProbe (drawProbe s).1))

/-- SPKOPEN (44_speaker R255). -/
def spkOpen (s : State) : State :=
  onBus .reg (fun u => (regWrite u.cfg.spkCfgReg u.cfg.spkCfgOpen u).advance) s

/-- What SPKREPLAY does with a fetched record, or with `End` (44_speaker R256). -/
def judgeDirective (mode : Tag) (v : Option Directive) (s : State) : State :=
  match v with
  | none   => s.advance
  | some d => if tagMatches mode d then s.goTo (.directiveHeld d) else s.goTo .start

/-- SPKREPLAY writes the directive it holds and counts it (44_speaker R256). -/
def applyDirective (d : Directive) (s : State) : State :=
  ({ regWrite d.reg d.values s with applied := s.applied + 1 } : State).goTo .start

/-- SPKREPLAY (44_speaker R256): each fetch and each write is a step. -/
def spkReplay (mode : Tag) (s : State) : State :=
  match s.pos with
  | .directiveHeld d => onBus .reg (applyDirective d) s
  | .start | .delayOwed | .delayTaken | .mixerSetOwed | .raiseOwed =>
    judgeDirective mode (drawFetch s).1 ((drawFetch s).2.emit (.dirFetch (drawFetch s).1))

/-- SPKCLOSE (44_speaker R257): the same register as SPKOPEN. -/
def spkClose (s : State) : State :=
  onBus .reg (fun u => (regWrite u.cfg.spkCfgReg u.cfg.spkCfgClose u).advance) s

/-- FIN of a speaker command: `Applied(APPLIED)` (30_encoding R118). -/
def finApplied (s : State) : State := finish (.applied s.applied) s

/-- The list of a speaker command of a mode (44_speaker R252). -/
def speakerList (mode : Tag) : List (State → State) :=
  [mix, dirchk, spkOpen, spkReplay mode, spkClose, finApplied]

/-- SPEAKER.LEFT (44_speaker R252, 30_encoding R117). -/
def execSpeakerLeft (s : State) : Host.Outcome State Fault Refusal := runCommand .speakerLeft (speakerList .left) s

/-- SPEAKER.RIGHT (44_speaker R252, 30_encoding R117). -/
def execSpeakerRight (s : State) : Host.Outcome State Fault Refusal := runCommand .speakerRight (speakerList .right) s

/-- SPEAKER.MONO (44_speaker R252, 30_encoding R117). -/
def execSpeakerMono (s : State) : Host.Outcome State Fault Refusal := runCommand .speakerMono (speakerList .mono) s

end Sys2Proof.Machine
end

