-- ==== Sys2Proof/Machine/Dispatch.lean ====
section
/-! DEFINITION. One arm per command: its meaning (30_encoding R106, R112). -/

namespace Sys2Proof.Machine

def exec (i : Instr) (s : State) : Host.Outcome State Fault Refusal :=
  match i with
  | .batteryState => Sys2Proof.Machine.execBatteryState s
  | .batteryCapacity => Sys2Proof.Machine.execBatteryCapacity s
  | .batteryTime => Sys2Proof.Machine.execBatteryTime s
  | .systemState => Sys2Proof.Machine.execSystemState s
  | .systemOff => Sys2Proof.Machine.execSystemOff s
  | .backlightState => Sys2Proof.Machine.execBacklightState s
  | .backlight1 => Sys2Proof.Machine.execBacklight1 s
  | .backlight2 => Sys2Proof.Machine.execBacklight2 s
  | .backlight3 => Sys2Proof.Machine.execBacklight3 s
  | .backlight4 => Sys2Proof.Machine.execBacklight4 s
  | .backlight5 => Sys2Proof.Machine.execBacklight5 s
  | .backlight6 => Sys2Proof.Machine.execBacklight6 s
  | .backlight7 => Sys2Proof.Machine.execBacklight7 s
  | .backlight8 => Sys2Proof.Machine.execBacklight8 s
  | .backlight9 => Sys2Proof.Machine.execBacklight9 s
  | .backlight10 => Sys2Proof.Machine.execBacklight10 s
  | .backlightIncrease => Sys2Proof.Machine.execBacklightIncrease s
  | .backlightDecrease => Sys2Proof.Machine.execBacklightDecrease s
  | .backlightOn => Sys2Proof.Machine.execBacklightOn s
  | .backlightOff => Sys2Proof.Machine.execBacklightOff s
  | .lidState => Sys2Proof.Machine.execLidState s
  | .speakerLeft => Sys2Proof.Machine.execSpeakerLeft s
  | .speakerRight => Sys2Proof.Machine.execSpeakerRight s
  | .speakerMono => Sys2Proof.Machine.execSpeakerMono s

end Sys2Proof.Machine
end

