-- ==== Sys2Proof/Machine/Step.lean ====
section
/-! DEFINITION. One step of the block: the command it works on, decoded and run (00_scope R14, 30_encoding R105). -/

namespace Sys2Proof.Machine

/-- One step. -/
def step (s : State) : Host.Outcome State Fault Refusal :=
  match currentWord s with
  | none   => quietStep s
  | some w =>
    match decodeCommand w with
    | some i => exec i s
    | none   => reservedStep s

/-- `s` idle, with the command word `w` presented and an operand on the operand lines (log 12): the next step accepts it. -/
def State.withFetchWord (s : State) (nbits w : Nat) : State :=
  { s with
    ph   := .idle
    port := some { cmd := BitVec.ofNat 8 (w % 2 ^ nbits), arg := (s.port.map Presented.arg).getD 0, argv := true } }

end Sys2Proof.Machine
end

