-- ==== Sys2Proof/WellFormed.lean ====
section
/-! DEFINITION. What a well-formed input is: the configuration premises of 00_scope R7 and the command lines of 30_encoding
R105. A command of `Instr` has no fields, so every `Instr` is well-formed as it stands. -/

namespace Sys2Proof

/-- `MAX_ATTEMPTS >= 1` (00_scope R7, D17). -/
def Config.attemptsOk (c : Config) : Bool := decide (1 ≤ c.maxAttempts)

/-- The four gauge registers are distinct (00_scope R7, D9). -/
def Config.regsDistinct (c : Config) : Bool :=
  decide [c.regState, c.regCapacity, c.regChargeTime, c.regDischargeTime].Nodup

/-- `STATUS_REQ` is not a byte ENCODE can produce (00_scope R7, 70_reset R330, D8). -/
def Config.statusReqOk (c : Config) : Bool := !Machine.inEncodeImage c.statusReq

/-- `GAUGE_ADDR` is a device address of `ADDR_W` bits (20_memory R61, R70). -/
def Config.gaugeAddrOk (c : Config) : Bool := decide (c.gaugeAddr < 2 ^ c.addrW)

/-- Configuration well-formedness (00_scope R7, 20_memory R61). -/
def Config.wf (c : Config) : Bool := c.attemptsOk && c.regsDistinct && c.statusReqOk && c.gaugeAddrOk

/-- The operand lines carry an unsigned number of `ADDR_W` bits (30_encoding R107). -/
def Presented.wf (c : Config) (p : Presented) : Bool := decide (p.arg < 2 ^ c.addrW)

end Sys2Proof
end

