-- ==== Sys2Proof/Safety.lean ====
section
/-! DEFINITION. The terms claims are stated in: the families of commands, the shape of each command's list, runs of several
steps, the events of a poll, and the invariant of the machine. -/

namespace Sys2Proof.Machine

/-! ### Families and shapes (30_encoding R112) -/

/-- The three battery commands. -/
def isBattery (i : Instr) : Bool :=
  match i with
  | .batteryState | .batteryCapacity | .batteryTime => true
  | .systemState | .systemOff | .backlightState | .backlight1 | .backlight2 | .backlight3 | .backlight4 | .backlight5
  | .backlight6 | .backlight7 | .backlight8 | .backlight9 | .backlight10 | .backlightIncrease | .backlightDecrease
  | .backlightOn | .backlightOff | .lidState | .speakerLeft | .speakerRight | .speakerMono => false

/-- The three read-only hub commands (43_hub_commands R211). -/
def isReadOnly (i : Instr) : Bool :=
  match i with
  | .systemState | .backlightState | .lidState => true
  | .batteryState | .batteryCapacity | .batteryTime | .systemOff | .backlight1 | .backlight2 | .backlight3 | .backlight4
  | .backlight5 | .backlight6 | .backlight7 | .backlight8 | .backlight9 | .backlight10 | .backlightIncrease
  | .backlightDecrease | .backlightOn | .backlightOff | .speakerLeft | .speakerRight | .speakerMono => false

/-- The fifteen mutating hub commands (43_hub_commands R210). -/
def isMutating (i : Instr) : Bool :=
  match i with
  | .systemOff | .backlight1 | .backlight2 | .backlight3 | .backlight4 | .backlight5 | .backlight6 | .backlight7
  | .backlight8 | .backlight9 | .backlight10 | .backlightIncrease | .backlightDecrease | .backlightOn
  | .backlightOff => true
  | .batteryState | .batteryCapacity | .batteryTime | .systemState | .backlightState | .lidState | .speakerLeft
  | .speakerRight | .speakerMono => false

/-- The commands of the hub: the read-only and the mutating ones. -/
def isHub (i : Instr) : Bool := isReadOnly i || isMutating i

/-- The mode of a speaker command (30_encoding R117); no other command has one. -/
def modeOf (i : Instr) : Option Tag :=
  match i with
  | .speakerLeft  => some .left
  | .speakerRight => some .right
  | .speakerMono  => some .mono
  | .batteryState | .batteryCapacity | .batteryTime | .systemState | .systemOff | .backlightState | .backlight1
  | .backlight2 | .backlight3 | .backlight4 | .backlight5 | .backlight6 | .backlight7 | .backlight8 | .backlight9
  | .backlight10 | .backlightIncrease | .backlightDecrease | .backlightOn | .backlightOff | .lidState => none

/-- The index of FIN in the command's list, the greatest value `UPC` takes (30_encoding R112). -/
def finIndex (i : Instr) : Nat :=
  match i with
  | .batteryState    => 2
  | .batteryCapacity => 1
  | .batteryTime     => 3
  | .systemState | .backlightState | .lidState => 1
  | .systemOff | .backlight1 | .backlight2 | .backlight3 | .backlight4 | .backlight5 | .backlight6 | .backlight7
  | .backlight8 | .backlight9 | .backlight10 | .backlightIncrease | .backlightDecrease | .backlightOn
  | .backlightOff | .speakerLeft | .speakerRight | .speakerMono => 5

/-- Whether the micro-operation at index `k` is HGET (30_encoding R112). -/
def hgetAt (i : Instr) (k : Nat) : Bool :=
  (isHub i && decide (k = 0)) || (isMutating i && (decide (k = 3) || decide (k = 4)))

/-- Whether the micro-operation at index `k` is HSET (30_encoding R112). -/
def hsetAt (i : Instr) (k : Nat) : Bool := isMutating i && decide (k = 2)

/-- The gauge register read by the micro-operation at index `k`, where it is a GRD (42_battery R192, R193, R194). -/
def grdAt (i : Instr) (k : Nat) (d : Direction) : Option GaugeReg :=
  match i with
  | .batteryState    => if k = 0 then some .state else none
  | .batteryCapacity => if k = 0 then some .capacity else none
  | .batteryTime     => if k = 0 then some .state else if k = 2 then some (timeRegister d) else none
  | .systemState | .systemOff | .backlightState | .backlight1 | .backlight2 | .backlight3 | .backlight4 | .backlight5
  | .backlight6 | .backlight7 | .backlight8 | .backlight9 | .backlight10 | .backlightIncrease | .backlightDecrease
  | .backlightOn | .backlightOff | .lidState | .speakerLeft | .speakerRight | .speakerMono => none

/-- Whether the micro-operation at index `k` is a poll (60_exceptions R276). -/
def pollsAt (i : Instr) (k : Nat) (d : Direction) : Bool := hgetAt i k || hsetAt i k || (grdAt i k d).isSome

/-- What MUT of a mutating command makes of a status, `none` where nothing is to be sent (43_hub_commands R214, R216 to
R220); the level of BACKLIGHT.N is written out from its name. -/
def mutation (i : Instr) (h : HubStatus) : Option HubStatus :=
  match i with
  | .systemOff         => some { h with powerOff := true }
  | .backlightIncrease =>
    if h.brightness.toNat < 10 then some { h with screenOff := false, brightness := h.brightness + 1#4 } else none
  | .backlightDecrease =>
    if 1 < h.brightness.toNat then some { h with screenOff := false, brightness := h.brightness - 1#4 } else none
  | .backlightOn       => some { h with screenOff := false, brightness := 5#4 }
  | .backlightOff      => some { h with screenOff := true }
  | .backlight1        => some { h with screenOff := false, brightness := 1#4 }
  | .backlight2        => some { h with screenOff := false, brightness := 2#4 }
  | .backlight3        => some { h with screenOff := false, brightness := 3#4 }
  | .backlight4        => some { h with screenOff := false, brightness := 4#4 }
  | .backlight5        => some { h with screenOff := false, brightness := 5#4 }
  | .backlight6        => some { h with screenOff := false, brightness := 6#4 }
  | .backlight7        => some { h with screenOff := false, brightness := 7#4 }
  | .backlight8        => some { h with screenOff := false, brightness := 8#4 }
  | .backlight9        => some { h with screenOff := false, brightness := 9#4 }
  | .backlight10       => some { h with screenOff := false, brightness := 10#4 }
  | .batteryState | .batteryCapacity | .batteryTime | .systemState | .backlightState | .lidState | .speakerLeft
  | .speakerRight | .speakerMono => none

/-- The ten commands that set a level, with the level each sets (43_hub_commands R220). -/
def levelCommands : List (Nibble × Instr) :=
  [(1#4, .backlight1), (2#4, .backlight2), (3#4, .backlight3), (4#4, .backlight4), (5#4, .backlight5), (6#4, .backlight6),
   (7#4, .backlight7), (8#4, .backlight8), (9#4, .backlight9), (10#4, .backlight10)]

/-- The payload FIN of each command delivers (30_encoding R118). -/
def payloadOf (i : Instr) (s : State) : Payload :=
  match i with
  | .batteryState    => .direction s.dir
  | .batteryCapacity => .capacity s.raw
  | .batteryTime     => .time s.dir s.raw
  | .speakerLeft | .speakerRight | .speakerMono => .applied s.applied
  | .systemState | .systemOff | .backlightState | .backlight1 | .backlight2 | .backlight3 | .backlight4 | .backlight5
  | .backlight6 | .backlight7 | .backlight8 | .backlight9 | .backlight10 | .backlightIncrease | .backlightDecrease
  | .backlightOn | .backlightOff | .lidState => .status s.rxb s.status

/-- The conditions of 30_encoding R108 (a) on a reserved word, as the rule lists them. -/
def reservedFields (dev op : Nat) : Bool :=
  decide (5 ≤ dev) || (decide (dev = 0) && decide (3 ≤ op)) || (decide (dev = 1) && decide (2 ≤ op))
    || (decide (dev = 2) && decide (op = 15)) || (decide (dev = 3) && decide (1 ≤ op))
    || (decide (dev = 4) && decide (3 ≤ op))

/-! ### Positions in a poll (41_poll R177) -/

/-- The next step of the running poll is an attempt: it is the first one, or its delay has been taken. -/
def attemptDue (s : State) : Bool :=
  match s.pos with
  | .delayOwed  => false
  | .delayTaken => true
  | .start | .mixerSetOwed | .raiseOwed | .directiveHeld _ => decide (0 < s.cfg.maxAttempts)

/-- The number of that attempt: `ATT` counts the ones already made, from 0 at the start of the poll (10_state R31). -/
def attemptNumber (s : State) : Nat := if s.inPoll then s.att + 1 else 1

/-- The state after an attempt whose answer is rejected (41_poll R161, R177 (b), (e)): the attempt and its event `e` count;
while the budget lasts a delay is owed, and at the last attempt BusFailure ends the command (60_exceptions R278). -/
def rejected (s : State) (a : Answers) (e : Event) : State :=
  if attemptNumber s < s.cfg.maxAttempts then
    { s with att := attemptNumber s, answers := a, events := s.events ++ [e], pos := .delayOwed }
  else
    { s with
      att := attemptNumber s, answers := a, pos := .start, ph := .done
      res := { s.res with valid := true, err := 1#3, attempts := s.cfg.maxAttempts }
      events := s.events ++ [e] ++ [.result { s.res with valid := true, err := 1#3, attempts := s.cfg.maxAttempts }] }

/-- A result record with the fields that mean nothing in it at a fixed value: `attempts` is meaningful for BusFailure only and
`payload` for Ok only (10_state R32). -/
def Res.meaningful (r : Res) : Res :=
  { r with
    attempts := if r.err = 1#3 then r.attempts else 0
    payload  := if r.err = 0#3 then r.payload else .applied 0 }

/-- An event with what is meaningful in it: a result record's meaningful fields, any other event whole. -/
def Event.meaningful : Event → Event
  | .result r => .result r.meaningful
  | e         => e

/-! ### Runs -/

/-- `n` steps from `s` answer the next state `t`. -/
def Reaches (n : Nat) (s t : State) : Prop := Host.Core.run Sys2Proof.core n s = Host.Outcome.next t

/-- The transactions of a poll with a `Delay` between each two (41_poll R162). -/
def withDelays : List Event → List Event
  | []           => []
  | [e]          => [e]
  | e :: f :: es => e :: Event.delay :: withDelays (f :: es)

/-- What SPKREPLAY does with a list of directives, as events (44_speaker R256): each is fetched, and written at `addr` when
it matches the mode. -/
def replayEvents (addr : Nat) (mode : Tag) : List Directive → List Event
  | []      => [.dirFetch none]
  | d :: ds =>
    if tagMatches mode d then .dirFetch (some d) :: .regWrite addr d.reg d.values :: replayEvents addr mode ds
    else .dirFetch (some d) :: replayEvents addr mode ds

/-- The steps SPKREPLAY takes for a list of directives: one for each fetch and one for each write (00_scope R14). -/
def replaySteps (mode : Tag) : List Directive → Nat
  | []      => 1
  | d :: ds => (if tagMatches mode d then 2 else 1) + replaySteps mode ds

/-! ### The invariant -/

/-- A word that a GRD of this register can have accepted (41_poll R167 to R170). -/
def accepted (s : State) (r : GaugeReg) (raw : Word) : Prop :=
  acceptGauge s.cfg.zeroFilterAll r (some raw) = some raw

/-- The position in the running micro-operation is one that it has, and `ATT` is within the budget (41_poll R177,
44_speaker R253, R254, R256). -/
def PosOk (i : Instr) (s : State) : Prop :=
  match s.pos with
  | .start           => True
  | .delayOwed       => pollsAt i s.upc s.dir = true ∧ 1 ≤ s.att ∧ s.att < s.cfg.maxAttempts
  | .delayTaken      => pollsAt i s.upc s.dir = true ∧ 1 ≤ s.att ∧ s.att < s.cfg.maxAttempts
  | .mixerSetOwed    => needsOperand i = true ∧ s.upc = 0
  | .raiseOwed       => needsOperand i = true ∧ (s.upc = 0 ∨ s.upc = 1)
  | .directiveHeld d => s.upc = 3 ∧ ∃ m, modeOf i = some m ∧ tagMatches m d = true

/-- What the registers of a running battery command hold (42_battery R191 to R194). -/
def BatteryOk (i : Instr) (s : State) : Prop :=
  (i = .batteryCapacity → s.upc = 1 → accepted s .capacity s.raw) ∧
  (i = .batteryState ∨ i = .batteryTime →
    (s.upc = 1 → accepted s .state s.raw) ∧
    (2 ≤ s.upc → stateLo ≤ s.norm ∧ s.norm ≤ stateHi ∧ s.dir = directionOf s.norm)) ∧
  (i = .batteryTime → s.upc = 3 → accepted s (timeRegister s.dir) s.raw)

/-- What the registers of a running hub command hold (41_poll R174, R175, 43_hub_commands R210): after an HGET the status is
that of the accepted byte, which is not zero; what is to be sent is not the zero byte (70_reset R321). -/
def HubOk (i : Instr) (s : State) : Prop :=
  isHub i = true →
    (1 ≤ s.upc → s.rxb ≠ 0#8) ∧
    (s.upc = 1 ∨ s.upc = 4 ∨ s.upc = 5 → s.status = decodeStatus s.rxb) ∧
    (s.upc = 2 → encodeOf s.status ≠ 0#8) ∧
    (s.upc = 2 → s.inPoll = true → s.txb = encodeOf s.status)

/-- A payload within the bounds of 42_battery R196 and R198, and of the kind its command delivers (30_encoding R118). -/
def PayloadOk (i : Instr) (s : State) (p : Payload) : Prop :=
  match p with
  | .direction d => i = .batteryState ∧ d ≠ .unknown
  | .capacity n  => i = .batteryCapacity ∧ 1 ≤ n.toNat ∧ n.toNat ≤ 100
  | .time d n    =>
    i = .batteryTime ∧ (s.cfg.zeroFilterAll = true → 1 ≤ n.toNat) ∧
      ((d = .charging ∧ n.toNat ≤ 2400) ∨ (d = .discharging ∧ n.toNat ≤ 1800))
  | .status b h  => isHub i = true ∧ b ≠ 0#8 ∧ h = decodeStatus b
  | .applied _   => needsOperand i = true

/-- What a result record says once the command is done (60_exceptions R271 to R276): a payload of the command's kind, or a
failure the command can raise at the micro-operation `UPC` names. -/
def ResultOk (s : State) : Prop :=
  match s.res.report with
  | .ok p                        => ∃ i, decodeCommand s.cmd = some i ∧ PayloadOk i s p
  | .failed (.busFailure n)      =>
    n = s.cfg.maxAttempts ∧ s.att = s.cfg.maxAttempts ∧ ∃ i, decodeCommand s.cmd = some i ∧ pollsAt i s.upc s.dir = true
  | .failed .configMissing       => s.upc = 1 ∧ ∃ i, decodeCommand s.cmd = some i ∧ needsOperand i = true
  | .failed .mixerQueryFailed    => s.upc = 0 ∧ ∃ i, decodeCommand s.cmd = some i ∧ needsOperand i = true
  | .failed .invalidArgument     =>
    s.upc = 0 ∧ ∀ i, decodeCommand s.cmd = some i → needsOperand i = true ∧ s.argv = false
  | .unassigned _                => False

/-- An event on the register bus names a device address of `ADDR_W` bits (20_memory R61). -/
def Event.addressFits (addrW : Nat) : Event → Prop
  | .regRead addr _ _ _ => addr < 2 ^ addrW
  | .regWrite addr _ _  => addr < 2 ^ addrW
  | _                   => True

/-- What holds of a running command: its word is one of the 24, its operand is there if it needs one, `UPC` is an index of
its list, and its registers hold what its micro-operations so far have written. -/
def RunOk (s : State) : Prop :=
  ∃ i, decodeCommand s.cmd = some i ∧ (needsOperand i = true → s.argv = true) ∧ s.upc ≤ finIndex i ∧
    PosOk i s ∧ BatteryOk i s ∧ HubOk i s

/-- The invariant of the machine, kept by every step and true at reset: the budget is at least 1, `ARG` fits its width, so
does every address the register bus has seen (20_memory R61),
`ATT` is within the budget, the result is valid exactly when the command is done, and the phase's own condition holds. -/
structure State.Inv (s : State) : Prop where
  budget  : 1 ≤ s.cfg.maxAttempts
  argFits : s.arg < 2 ^ s.cfg.addrW
  seenFit : ∀ e ∈ s.events, e.addressFits s.cfg.addrW
  attOk   : s.att ≤ s.cfg.maxAttempts
  valid   : s.res.valid = true ↔ s.ph = .done
  running : s.ph = .run → RunOk s
  result  : s.ph = .done → ResultOk s

end Sys2Proof.Machine
end

