-- ==== Sys2Proof/Certificates/Slice0/Obligations.lean ====
section
/-! DEFINITION. The statements for the provers, each from the numbered rules its docstring names. Statements speak of every
state unless a hypothesis says otherwise; no statement rests on a value the model chose for reset or on a value of a free
answer, and none but InvariantAtReset on a value of the configuration (the default budget, log 3). The fields `pos`, `port`,
`answers`, `events` in them are the model's own (logs 6, 8, 4, 7), and the cut of a command into steps is log 1's. -/

open Sys2Proof Sys2Proof.Machine

/-! ### Encoding -/

/-- R106, R108 (a), R109: a word decodes to a command exactly when it is that command's word, and is rejected exactly under
the conditions the rule lists. -/
def Obligations.CommandWordsAndReservedWords : Prop :=
  (∀ (w : Byte) (i : Instr), decodeCommand w = some i ↔ w = encode i) ∧
  (∀ w : Byte, decodeCommand w = none ↔ reservedFields (devField w).toNat (opField w).toNat = true)

/-- R106: words written out from the table of the spec decode to their commands; `0x2F` does not decode. -/
def Obligations.WordsOfTheTableDecode : Prop :=
  decodeWord 0b00000010#8 = .ok .batteryTime ∧ decodeWord 0b00010001#8 = .ok .systemOff ∧
  decodeWord 0b00100111#8 = .ok .backlight7 ∧ decodeWord 0b00101110#8 = .ok .backlightOff ∧
  decodeWord 0b00110000#8 = .ok .lidState ∧ decodeWord 0b01000010#8 = .ok .speakerMono ∧
  decodeWord 0b00101111#8 = .error (.operation 2#4 15#4) ∧ decodeWord 0b01010000#8 = .error (.device 5#4)

/-! ### CODEC -/

/-- R140: PARITY is the XOR of all bits, and leading zero bits do not change it. -/
def Obligations.ParityIsXorOfAllBits : Prop :=
  (∀ (w : Nat) (n : BitVec w), parity n = (List.range w).foldr (fun k b => Bool.xor (n.getLsbD k) b) false) ∧
  (∀ (w v : Nat) (n : BitVec w), w ≤ v → parity (n.setWidth v) = parity n) ∧
  (∀ w : Nat, parity (0#w) = false) ∧ parity 1#8 = true ∧ parity 3#8 = false ∧ parity 7#8 = true

/-- R141: every field of DECODE, bit by bit, and bit 7 is not read. -/
def Obligations.DecodeReadsTheStatusByte : Prop :=
  ∀ x : Byte,
    (decodeStatus x).powerOff = x[0] ∧ (decodeStatus x).screenOff = x[1] ∧ (decodeStatus x).lidOpen = x[2] ∧
    (decodeStatus x).stateParity = Bool.xor x[0] x[1] ∧
    (decodeStatus x).brightness[0] = x[3] ∧ (decodeStatus x).brightness[1] = x[4] ∧
    (decodeStatus x).brightness[2] = x[5] ∧ (decodeStatus x).brightness[3] = x[6] ∧
    (decodeStatus x).brightnessParity = Bool.xor (Bool.xor x[3] x[4]) (Bool.xor x[5] x[6]) ∧
    decodeStatus (x ^^^ 0x80#8) = decodeStatus x

/-- R152: the closed forms of ENCODE, bit by bit. -/
def Obligations.EncodeWritesTheStatusByte : Prop :=
  ∀ (p s : Bool) (br : Nibble),
    (encodeStatus p s br)[0] = p ∧ (encodeStatus p s br)[1] = s ∧ (encodeStatus p s br)[2] = Bool.xor p s ∧
    (encodeStatus p s br)[3] = br[0] ∧ (encodeStatus p s br)[4] = br[1] ∧
    (encodeStatus p s br)[5] = br[2] ∧ (encodeStatus p s br)[6] = br[3] ∧
    (encodeStatus p s br)[7] = Bool.xor (Bool.xor br[0] br[1]) (Bool.xor br[2] br[3])

/-- R144, R146: decoding an encoded status keeps the three fields, gives consistent parities, and a lid bit that is the state
parity guard. -/
def Obligations.DecodeAfterEncode : Prop :=
  ∀ (p s : Bool) (br : Nibble),
    decodeStatus (encodeStatus p s br) =
      { powerOff := p, screenOff := s, lidOpen := Bool.xor p s, brightness := br, stateParity := Bool.xor p s,
        brightnessParity := parity br }

/-- R145: a byte survives decoding and encoding exactly when its two guards are right, which is exactly when ENCODE can
produce it; any other byte comes back changed in bit 7 or bit 2 only. -/
def Obligations.EncodeAfterDecode : Prop :=
  ∀ x : Byte,
    (encodeOf (decodeStatus x) = x ↔ (x[7] = parity (x.extractLsb' 3 4) ∧ x[2] = Bool.xor x[0] x[1])) ∧
    (encodeOf (decodeStatus x) = x ↔ ∃ p s br, encodeStatus p s br = x) ∧
    (encodeOf (decodeStatus x) ^^^ x) &&& 0x7B#8 = 0#8

/-- R151: ENCODE has 64 distinct results, the bytes of its table, row by row for brightness 0 to 15; the low three bits; 0xFF
is none of them and 0x00 is one. -/
def Obligations.EncodeHas64Results : Prop :=
  ((List.range 16).map (fun n =>
      [encodeStatus false false (BitVec.ofNat 4 n), encodeStatus true false (BitVec.ofNat 4 n),
       encodeStatus false true (BitVec.ofNat 4 n), encodeStatus true true (BitVec.ofNat 4 n)]) =
    [[0x00#8, 0x05#8, 0x06#8, 0x03#8], [0x88#8, 0x8D#8, 0x8E#8, 0x8B#8], [0x90#8, 0x95#8, 0x96#8, 0x93#8],
     [0x18#8, 0x1D#8, 0x1E#8, 0x1B#8], [0xA0#8, 0xA5#8, 0xA6#8, 0xA3#8], [0x28#8, 0x2D#8, 0x2E#8, 0x2B#8],
     [0x30#8, 0x35#8, 0x36#8, 0x33#8], [0xB8#8, 0xBD#8, 0xBE#8, 0xBB#8], [0xC0#8, 0xC5#8, 0xC6#8, 0xC3#8],
     [0x48#8, 0x4D#8, 0x4E#8, 0x4B#8], [0x50#8, 0x55#8, 0x56#8, 0x53#8], [0xD8#8, 0xDD#8, 0xDE#8, 0xDB#8],
     [0x60#8, 0x65#8, 0x66#8, 0x63#8], [0xE8#8, 0xED#8, 0xEE#8, 0xEB#8], [0xF0#8, 0xF5#8, 0xF6#8, 0xF3#8],
     [0x78#8, 0x7D#8, 0x7E#8, 0x7B#8]]) ∧
  (∀ (p s : Bool) (br : Nibble) (p' s' : Bool) (br' : Nibble),
    encodeStatus p s br = encodeStatus p' s' br' → p = p' ∧ s = s' ∧ br = br') ∧
  (∀ (p s : Bool) (br : Nibble), (encodeStatus p s br).extractLsb' 0 3 ∈ [0b000#3, 0b101#3, 0b110#3, 0b011#3]) ∧
  inEncodeImage 0xFF#8 = false ∧ encodeStatus false false 0#4 = 0x00#8

/-! ### Predicates, normalisation, view -/

/-- R190: NORMALISE is the word as it is when bit 15 is clear and the word less 65536 when it is set; its range. -/
def Obligations.NormaliseIsTwosComplement : Prop :=
  ∀ raw : Word,
    (raw[15] = false → normalise raw = raw.toNat) ∧ (raw[15] = true → normalise raw = (raw.toNat : Int) - 65536) ∧
    -32768 ≤ normalise raw ∧ normalise raw ≤ 32767

/-- R166, R171: a hub response is accepted as its first byte exactly when it is non-empty and that byte is not zero. -/
def Obligations.HubResponseAcceptance : Prop :=
  ∀ (rx : List Byte) (b : Byte), okHub rx = some b ↔ rx.head? = some b ∧ b ≠ 0x00#8

/-- R167 to R171: which gauge answers are accepted, register by register, in raw words. -/
def Obligations.GaugeAnswerAcceptance : Prop :=
  ∀ (zf : Bool) (r : GaugeReg) (v : Option Word) (raw : Word),
    acceptGauge zf r v = some raw ↔
      v = some raw ∧ (raw = 0#16 → r ≠ .capacity ∧ zf = false) ∧
        (match r with
         | .state         => raw.toNat ≤ 0x0FA0 ∨ 0xF060 ≤ raw.toNat
         | .capacity      => raw.toNat ≤ 100
         | .chargeTime    => raw.toNat ≤ 2400
         | .dischargeTime => raw.toNat ≤ 1800)

/-- R233: what the host reads off a status, by the device of the command. -/
def Obligations.ViewByDevice : Prop :=
  ∀ (i : Instr) (h : HubStatus),
    ((devField (encode i)).toNat = 1 → viewOf i h = some (.powerOff h.powerOff)) ∧
    ((devField (encode i)).toNat = 2 → h.screenOff = true → viewOf i h = some .off) ∧
    ((devField (encode i)).toNat = 2 → h.screenOff = false → viewOf i h = some (.level h.brightness)) ∧
    ((devField (encode i)).toNat = 3 → viewOf i h = some (.lidOpen h.lidOpen))

/-! ### Reset, acceptance, the command check -/

/-- R39: the values the spec gives for reset. -/
def Obligations.ResetValues : Prop :=
  State.reset.ph = .idle ∧ State.reset.upc = 0 ∧ State.reset.att = 0 ∧ State.reset.dir = .unknown ∧
  State.reset.applied = 0 ∧ State.reset.hubOpen = false ∧ State.reset.regOpen = false ∧ State.reset.res.valid = false

/-- R310: a reset by the host gives every register its value after reset, whatever the idle or finished block held, sends
nothing, and leaves the environment and the configuration alone; there is no such move while a command runs (log 21). -/
def Obligations.HostResetIsReset : Prop :=
  ∀ s : State,
    (s.ph ≠ .run → hostReset s = { State.reset with cfg := s.cfg, answers := s.answers }) ∧
    (s.ph = .run → hostReset s = s)

/-- A step is `exec` of the command the block works on: the presented one when idle, the latched one when running. -/
def Obligations.StepRunsDecodedCommand : Prop :=
  ∀ (s : State) (i : Instr),
    (∀ p, s.ph = .idle → s.port = some p → decodeCommand p.cmd = some i → step s = exec i s) ∧
    (s.ph = .run → decodeCommand s.cmd = some i → step s = exec i s)

/-- R105: the idle block latches a command that passes the check and starts it; R107: the operand lines are latched
unchanged where they fit `ADDR_W` bits, and matter to no command but the speaker's. That the port is then free again is the
model's choice (log 8). -/
def Obligations.AcceptanceStartsTheCommand : Prop :=
  ∀ (s : State) (p : Presented) (i : Instr),
    s.ph = .idle → s.port = some p → p.arg < 2 ^ s.cfg.addrW → decodeCommand p.cmd = some i →
    (needsOperand i = true → p.argv = true) →
    exec i s = .next
      { s with ph := .run, cmd := p.cmd, arg := p.arg, argv := p.argv, upc := 0, pos := .start, port := none }

/-- R108, R274, R278: a reserved word, or a speaker command without its operand, is latched and ends in InvalidArgument in
that same step; `Result` is the only event and no other register changes. The one step is the model's reading (log 1), the
freed port its choice (log 8). -/
def Obligations.CommandCheckRejects : Prop :=
  ∀ (s : State) (p : Presented),
    s.ph = .idle → s.port = some p → p.arg < 2 ^ s.cfg.addrW →
    (decodeCommand p.cmd = none ∨ ∃ i, decodeCommand p.cmd = some i ∧ needsOperand i = true ∧ p.argv = false) →
    step s = .next
      { s with
        ph := .done, cmd := p.cmd, arg := p.arg, argv := p.argv, upc := 0, pos := .start, port := none
        res := { s.res with valid := true, err := 4#3 }
        events := s.events ++ [.result { s.res with valid := true, err := 4#3 }] }

/-- R105, U10: a command presented while the block is not idle is ignored: the step is the one it would have made. That it
stays at the port is the model's choice (log 8). -/
def Obligations.PresentedCommandIgnoredUnlessIdle : Prop :=
  ∀ (s t : State) (p : Presented),
    s.ph ≠ .idle → step s = .next t → step (present p s) = .next (present p t)

/-- R311: the idle block with nothing presented waits; R281, R19: once the result is there nothing runs and nothing
changes. -/
def Obligations.IdleWaitsAndDoneStays : Prop :=
  ∀ s : State,
    (s.ph = .idle → s.port = none → step s = .next s) ∧
    (s.ph = .done → step s = .next s ∧ ∀ i, exec i s = .next s)

/-! ### POLL, step by step (R177) -/

/-- R161, R163, R177 (b): when a delay is owed and the budget is not spent, the step is the delay and nothing else, for
every polling micro-operation. -/
def Obligations.DelayBeforeEveryRetry : Prop :=
  ∀ (i : Instr) (s : State),
    s.ph = .run → pollsAt i s.upc s.dir = true → s.pos = .delayOwed → s.att < s.cfg.maxAttempts →
    exec i s = .next { s with pos := .delayTaken, events := s.events ++ [.delay] }

/-- R76, R37: a polling micro-operation whose bus is not open opens it by a step of its own, before the transaction; the
attempt count is at its start. -/
def Obligations.BusOpensBeforeItsFirstTransaction : Prop :=
  ∀ (i : Instr) (s : State),
    s.ph = .run → s.pos = .start → 0 < s.cfg.maxAttempts →
    (hgetAt i s.upc = true → s.hubOpen = false →
      exec i s = .next { s with att := 0, hubOpen := true, events := s.events ++ [.opened .hub] }) ∧
    ((grdAt i s.upc s.dir).isSome = true → s.regOpen = false →
      exec i s = .next { s with att := 0, regOpen := true, events := s.events ++ [.opened .reg] })

/-- R174, R143, R177 (d): an attempt of HGET whose response is accepted writes `RXB` and all of `S` and ends the
micro-operation. The response is the environment's next one, queued or free. -/
def Obligations.StatusReadAccepted : Prop :=
  ∀ (i : Instr) (s : State) (b : Byte),
    s.ph = .run → hgetAt i s.upc = true → s.hubOpen = true → attemptDue s = true → okHub (drawHub s).1 = some b →
    exec i s = .next
      { s with
        att := attemptNumber s, rxb := b, status := decodeStatus b, upc := s.upc + 1, pos := .start
        answers := (drawHub s).2.answers, events := s.events ++ [.hubXfer s.cfg.statusReq (drawHub s).1] }

/-- R175, R177 (d): an attempt of HSET whose response is accepted: the byte sent is ENCODE of `S` at the first attempt and
`TXB` at every further one; the response is dropped, `S` and `RXB` are not written. -/
def Obligations.StatusWriteAccepted : Prop :=
  ∀ (i : Instr) (s : State) (b : Byte),
    s.ph = .run → hsetAt i s.upc = true → s.hubOpen = true → attemptDue s = true → okHub (drawHub s).1 = some b →
    let tx := if s.inPoll then s.txb else encodeStatus s.status.powerOff s.status.screenOff s.status.brightness
    exec i s = .next
      { s with
        att := attemptNumber s, txb := tx, upc := s.upc + 1, pos := .start
        answers := (drawHub s).2.answers, events := s.events ++ [.hubXfer tx (drawHub s).1] }

/-- R176, R177 (d): an attempt of GRD whose word is accepted writes `RAW` and ends the micro-operation. -/
def Obligations.GaugeReadAccepted : Prop :=
  ∀ (i : Instr) (s : State) (r : GaugeReg) (raw : Word),
    s.ph = .run → grdAt i s.upc s.dir = some r → s.regOpen = true → attemptDue s = true →
    acceptGauge s.cfg.zeroFilterAll r (drawGauge s).1 = some raw →
    exec i s = .next
      { s with
        att := attemptNumber s, raw := raw, upc := s.upc + 1, pos := .start
        answers := (drawGauge s).2.answers
        events := s.events ++ [.regRead (gaugeAddress s.cfg) (gaugeNumber s.cfg r) 2 (drawGauge s).1] }

/-- R161, R164, R177 (e), R278: an attempt whose answer is rejected counts, and then owes a delay while the budget lasts;
at the last attempt the command ends in BusFailure(MAX_ATTEMPTS) in that same step. HGET and GRD write no other register,
HSET none but `TXB`. -/
def Obligations.RejectedAttempt : Prop :=
  ∀ (i : Instr) (s : State),
    s.ph = .run → attemptDue s = true →
    (hgetAt i s.upc = true → s.hubOpen = true → okHub (drawHub s).1 = none →
      exec i s = .next (rejected s (drawHub s).2.answers (.hubXfer s.cfg.statusReq (drawHub s).1))) ∧
    (hsetAt i s.upc = true → s.hubOpen = true → okHub (drawHub s).1 = none →
      let tx := if s.inPoll then s.txb else encodeOf s.status
      exec i s = .next (rejected { s with txb := tx } (drawHub s).2.answers (.hubXfer tx (drawHub s).1))) ∧
    (∀ r, grdAt i s.upc s.dir = some r → s.regOpen = true →
      acceptGauge s.cfg.zeroFilterAll r (drawGauge s).1 = none →
      exec i s = .next (rejected s (drawGauge s).2.answers
        (.regRead (gaugeAddress s.cfg) (gaugeNumber s.cfg r) 2 (drawGauge s).1)))

/-! ### POLL, as a whole (R161, R162) -/

/-- R161, R162, R174: a status read that draws the rejected responses `bad` and then an accepted one makes exactly one
transfer for each and one delay between each two, in `2k - 1` steps for `k` attempts, all with the same byte. -/
def Obligations.StatusReadPollCounts : Prop :=
  ∀ (i : Instr) (s : State) (bad : List (List Byte)) (rx : List Byte) (b : Byte) (rest : List (List Byte)),
    s.ph = .run → decodeCommand s.cmd = some i → hgetAt i s.upc = true → s.pos = .start → s.hubOpen = true →
    s.answers.hub = bad ++ rx :: rest → (∀ x ∈ bad, okHub x = none) → bad.length < s.cfg.maxAttempts →
    okHub rx = some b →
    Reaches (2 * bad.length + 1) s
      { s with
        att := bad.length + 1, rxb := b, status := decodeStatus b, upc := s.upc + 1
        answers := { s.answers with hub := rest }
        events := s.events ++ withDelays ((bad ++ [rx]).map (.hubXfer s.cfg.statusReq)) }

/-- R161, R162, R175: the same of a status write: every attempt sends the one byte ENCODE(`S`), which `TXB` then holds. -/
def Obligations.StatusWritePollCounts : Prop :=
  ∀ (i : Instr) (s : State) (bad : List (List Byte)) (rx : List Byte) (b : Byte) (rest : List (List Byte)),
    s.ph = .run → decodeCommand s.cmd = some i → hsetAt i s.upc = true → s.pos = .start → s.hubOpen = true →
    s.answers.hub = bad ++ rx :: rest → (∀ x ∈ bad, okHub x = none) → bad.length < s.cfg.maxAttempts →
    okHub rx = some b →
    Reaches (2 * bad.length + 1) s
      { s with
        att := bad.length + 1, txb := encodeOf s.status, upc := s.upc + 1
        answers := { s.answers with hub := rest }
        events := s.events ++ withDelays ((bad ++ [rx]).map (.hubXfer (encodeOf s.status))) }

/-- R161, R162, R176: the same of a gauge read. -/
def Obligations.GaugeReadPollCounts : Prop :=
  ∀ (i : Instr) (r : GaugeReg) (s : State) (bad : List (Option Word)) (raw : Word) (rest : List (Option Word)),
    s.ph = .run → decodeCommand s.cmd = some i → grdAt i s.upc s.dir = some r → s.pos = .start → s.regOpen = true →
    s.answers.gauge = bad ++ some raw :: rest → (∀ x ∈ bad, acceptGauge s.cfg.zeroFilterAll r x = none) →
    bad.length < s.cfg.maxAttempts → acceptGauge s.cfg.zeroFilterAll r (some raw) = some raw →
    Reaches (2 * bad.length + 1) s
      { s with
        att := bad.length + 1, raw := raw, upc := s.upc + 1
        answers := { s.answers with gauge := rest }
        events := s.events ++
          withDelays ((bad ++ [some raw]).map (.regRead (gaugeAddress s.cfg) (gaugeNumber s.cfg r) 2)) }

/-- R162, R164, R271, R278: a status read whose whole budget draws rejected responses makes exactly `MAX_ATTEMPTS` transfers
and `MAX_ATTEMPTS - 1` delays and ends the command in BusFailure(MAX_ATTEMPTS), nothing else being written. -/
def Obligations.StatusReadPollFails : Prop :=
  ∀ (i : Instr) (s : State) (bad rest : List (List Byte)),
    s.ph = .run → decodeCommand s.cmd = some i → hgetAt i s.upc = true → s.pos = .start → s.hubOpen = true →
    s.answers.hub = bad ++ rest → (∀ x ∈ bad, okHub x = none) → bad.length = s.cfg.maxAttempts →
    0 < s.cfg.maxAttempts →
    Reaches (2 * bad.length - 1) s
      { s with
        att := s.cfg.maxAttempts, ph := .done, answers := { s.answers with hub := rest }
        res := { s.res with valid := true, err := 1#3, attempts := s.cfg.maxAttempts }
        events := s.events ++ withDelays (bad.map (.hubXfer s.cfg.statusReq)) ++
          [.result { s.res with valid := true, err := 1#3, attempts := s.cfg.maxAttempts }] }

/-! ### Battery commands -/

/-- R191: CLS of BATTERY.STATE and BATTERY.TIME. -/
def Obligations.ClassifyByThreshold : Prop :=
  ∀ (i : Instr) (s : State),
    (i = .batteryState ∨ i = .batteryTime) → s.ph = .run → s.upc = 1 →
    (-10 ≤ normalise s.raw →
      exec i s = .next { s with norm := normalise s.raw, dir := .charging, upc := 2, pos := .start }) ∧
    (normalise s.raw < -10 →
      exec i s = .next { s with norm := normalise s.raw, dir := .discharging, upc := 2, pos := .start })

/-- R118: FIN of every command delivers the payload of its kind, with `err` 0, and ends the command. -/
def Obligations.ResultDelivered : Prop :=
  ∀ (i : Instr) (s : State),
    s.ph = .run → s.upc = finIndex i →
    exec i s = .next
      { s with
        ph := .done, pos := .start, res := { s.res with valid := true, err := 0#3, payload := payloadOf i s }
        events := s.events ++ [.result { s.res with valid := true, err := 0#3, payload := payloadOf i s }] }

/-- R192: BATTERY.STATE, the whole command from acceptance to result, on a bus whose first answers are rejected. -/
def Obligations.BatteryStateCommand : Prop :=
  ∀ (s : State) (p : Presented) (bad : List (Option Word)) (raw : Word) (rest : List (Option Word)),
    s.ph = .idle → s.port = some p → p.cmd = 0x00#8 → s.regOpen = false →
    s.answers.gauge = bad ++ some raw :: rest → (∀ x ∈ bad, acceptGauge s.cfg.zeroFilterAll .state x = none) →
    bad.length < s.cfg.maxAttempts → acceptGauge s.cfg.zeroFilterAll .state (some raw) = some raw →
    ∃ t, Reaches (2 * bad.length + 5) s t ∧ t.ph = .done ∧ t.raw = raw ∧ t.norm = normalise raw ∧
      t.dir = (if -10 ≤ normalise raw then .charging else .discharging) ∧ t.att = bad.length + 1 ∧
      t.res.report = .ok (.direction t.dir) ∧
      t.events = s.events ++ [.opened .reg] ++
        withDelays ((bad ++ [some raw]).map (.regRead (gaugeAddress s.cfg) s.cfg.regState 2)) ++
        [.result t.res]

/-- R193: BATTERY.CAPACITY, the whole command; the state register is not read. -/
def Obligations.BatteryCapacityCommand : Prop :=
  ∀ (s : State) (p : Presented) (bad : List (Option Word)) (raw : Word) (rest : List (Option Word)),
    s.ph = .idle → s.port = some p → p.cmd = 0x01#8 → s.regOpen = false →
    s.answers.gauge = bad ++ some raw :: rest → (∀ x ∈ bad, acceptGauge s.cfg.zeroFilterAll .capacity x = none) →
    bad.length < s.cfg.maxAttempts → acceptGauge s.cfg.zeroFilterAll .capacity (some raw) = some raw →
    ∃ t, Reaches (2 * bad.length + 4) s t ∧ t.ph = .done ∧ t.raw = raw ∧ t.norm = s.norm ∧ t.dir = s.dir ∧
      t.att = bad.length + 1 ∧ t.res.report = .ok (.capacity raw) ∧
      t.events = s.events ++ [.opened .reg] ++
        withDelays ((bad ++ [some raw]).map (.regRead (gaugeAddress s.cfg) s.cfg.regCapacity 2)) ++
        [.result t.res]

/-- R194: BATTERY.TIME, the whole command: the direction from the state register, then the time register it names, each with
its own full budget. -/
def Obligations.BatteryTimeCommand : Prop :=
  ∀ (s : State) (p : Presented) (bad bad' : List (Option Word)) (raw raw' : Word) (rest : List (Option Word)),
    let dir : Direction := if -10 ≤ normalise raw then .charging else .discharging
    let reg : GaugeReg := if -10 ≤ normalise raw then .chargeTime else .dischargeTime
    s.ph = .idle → s.port = some p → p.cmd = 0x02#8 → s.regOpen = false →
    s.answers.gauge = bad ++ some raw :: bad' ++ some raw' :: rest →
    (∀ x ∈ bad, acceptGauge s.cfg.zeroFilterAll .state x = none) → bad.length < s.cfg.maxAttempts →
    acceptGauge s.cfg.zeroFilterAll .state (some raw) = some raw →
    (∀ x ∈ bad', acceptGauge s.cfg.zeroFilterAll reg x = none) → bad'.length < s.cfg.maxAttempts →
    acceptGauge s.cfg.zeroFilterAll reg (some raw') = some raw' →
    ∃ t, Reaches (2 * bad.length + 2 * bad'.length + 6) s t ∧ t.ph = .done ∧ t.raw = raw' ∧ t.norm = normalise raw ∧
      t.dir = dir ∧ t.att = bad'.length + 1 ∧ t.res.report = .ok (.time dir raw') ∧
      t.events = s.events ++ [.opened .reg] ++
        withDelays ((bad ++ [some raw]).map (.regRead (gaugeAddress s.cfg) s.cfg.regState 2)) ++
        withDelays ((bad' ++ [some raw']).map (.regRead (gaugeAddress s.cfg) (gaugeNumber s.cfg reg) 2)) ++
        [.result t.res]

/-- R29, R192 to R194: what a step of a battery command leaves alone. The block has no memory; the events are only added to. -/
def Obligations.BatteryFrame : Prop :=
  ∀ (i : Instr) (s t : State),
    isBattery i = true → exec i s = .next t →
    t.status = s.status ∧ t.rxb = s.rxb ∧ t.txb = s.txb ∧ t.applied = s.applied ∧ t.hubOpen = s.hubOpen ∧
    t.cfg = s.cfg ∧
    (s.ph ≠ .idle → t.cmd = s.cmd ∧ t.arg = s.arg ∧ t.argv = s.argv ∧ t.port = s.port) ∧
    (i = .batteryCapacity → t.norm = s.norm ∧ t.dir = s.dir) ∧
    (s.upc ≠ 1 → t.norm = s.norm ∧ t.dir = s.dir) ∧
    (t.ph ≠ .done → t.res = s.res) ∧
    t.answers.hub = s.answers.hub ∧ t.answers.mixer = s.answers.mixer ∧ t.answers.probe = s.answers.probe ∧
    t.answers.fetch = s.answers.fetch

/-! ### Hub commands -/

/-- R214, R216 to R220: MUT of each mutating command, when there is something to send. -/
def Obligations.MutationOfEachCommand : Prop :=
  ∀ s : State,
    s.ph = .run → s.upc = 1 →
    (exec .systemOff s = .next { s with status := { s.status with powerOff := true }, upc := 2, pos := .start }) ∧
    (s.status.brightness.toNat < 10 → exec .backlightIncrease s = .next
      { s with
        status := { s.status with screenOff := false, brightness := s.status.brightness + 1#4 }
        upc := 2, pos := .start }) ∧
    (1 < s.status.brightness.toNat → exec .backlightDecrease s = .next
      { s with
        status := { s.status with screenOff := false, brightness := s.status.brightness - 1#4 }
        upc := 2, pos := .start }) ∧
    (exec .backlightOn s = .next
      { s with status := { s.status with screenOff := false, brightness := 5#4 }, upc := 2, pos := .start }) ∧
    (exec .backlightOff s = .next { s with status := { s.status with screenOff := true }, upc := 2, pos := .start }) ∧
    (∀ q ∈ levelCommands,
      exec q.2 s = .next
        { s with status := { s.status with screenOff := false, brightness := q.1 }, upc := 2, pos := .start })

/-- R216, R217, R236 (b): MUT of INCREASE at 10 or above and of DECREASE at 1 or below sends nothing: `UPC <- 5`, `S` as
read. -/
def Obligations.NothingToSendSkipsToFin : Prop :=
  ∀ s : State,
    s.ph = .run → s.upc = 1 →
    (10 ≤ s.status.brightness.toNat → exec .backlightIncrease s = .next { s with upc := 5, pos := .start }) ∧
    (s.status.brightness.toNat ≤ 1 → exec .backlightDecrease s = .next { s with upc := 5, pos := .start })

/-- R210, R211, R213, R215, R221: a read-only command, the whole of it: one polled status read, no write, no confirmation. -/
def Obligations.ReadOnlyCommand : Prop :=
  ∀ (i : Instr) (s : State) (p : Presented) (bad : List (List Byte)) (rx : List Byte) (b : Byte) (rest : List (List Byte)),
    isReadOnly i = true → s.ph = .idle → s.port = some p → decodeCommand p.cmd = some i → s.hubOpen = false →
    s.answers.hub = bad ++ rx :: rest → (∀ x ∈ bad, okHub x = none) → bad.length < s.cfg.maxAttempts →
    okHub rx = some b →
    ∃ t, Reaches (2 * bad.length + 4) s t ∧ t.ph = .done ∧ t.rxb = b ∧ t.status = decodeStatus b ∧ t.txb = s.txb ∧
      t.answers.hub = rest ∧ t.res.report = .ok (.status b (decodeStatus b)) ∧
      t.events = s.events ++ [.opened .hub] ++ withDelays ((bad ++ [rx]).map (.hubXfer s.cfg.statusReq)) ++
        [.result t.res]

/-- R210, R212, R237, R214 to R220: a mutating command that has something to send, the whole of it: read, change, write
ENCODE of the changed fields, read twice, report the second read. Each of the four polls may meet rejected answers first; the
response to the write is not used. -/
def Obligations.MutatingCommandConfirmsTwice : Prop :=
  ∀ (i : Instr) (s : State) (p : Presented) (bad1 bad2 bad3 bad4 : List (List Byte)) (rx1 rx2 rx3 rx4 : List Byte)
    (b1 b2 b3 b4 : Byte) (h : HubStatus) (rest : List (List Byte)),
    isMutating i = true → s.ph = .idle → s.port = some p → decodeCommand p.cmd = some i → s.hubOpen = false →
    s.answers.hub = bad1 ++ rx1 :: (bad2 ++ rx2 :: (bad3 ++ rx3 :: (bad4 ++ rx4 :: rest))) →
    (∀ x ∈ bad1 ++ bad2 ++ bad3 ++ bad4, okHub x = none) →
    bad1.length < s.cfg.maxAttempts → bad2.length < s.cfg.maxAttempts → bad3.length < s.cfg.maxAttempts →
    bad4.length < s.cfg.maxAttempts →
    okHub rx1 = some b1 → okHub rx2 = some b2 → okHub rx3 = some b3 → okHub rx4 = some b4 →
    mutation i (decodeStatus b1) = some h →
    let tx := encodeStatus h.powerOff h.screenOff h.brightness
    ∃ n t, n = 2 * (bad1.length + bad2.length + bad3.length + bad4.length) + 8 ∧
      Reaches n s t ∧ t.ph = .done ∧ t.rxb = b4 ∧ t.status = decodeStatus b4 ∧ t.txb = tx ∧ t.answers.hub = rest ∧
      t.res.report = .ok (.status b4 (decodeStatus b4)) ∧
      t.events = s.events ++ [.opened .hub] ++
        withDelays ((bad1 ++ [rx1]).map (.hubXfer s.cfg.statusReq)) ++
        withDelays ((bad2 ++ [rx2]).map (.hubXfer tx)) ++
        withDelays ((bad3 ++ [rx3]).map (.hubXfer s.cfg.statusReq)) ++
        withDelays ((bad4 ++ [rx4]).map (.hubXfer s.cfg.statusReq)) ++
        [.result t.res]

/-- R216, R217: INCREASE and DECREASE with nothing to send, the whole of them: the only bus activity is the first status
read, and the result is the status as read. -/
def Obligations.NothingToSendReportsTheFirstRead : Prop :=
  ∀ (i : Instr) (s : State) (p : Presented) (bad : List (List Byte)) (rx : List Byte) (b : Byte) (rest : List (List Byte)),
    (i = .backlightIncrease ∨ i = .backlightDecrease) → s.ph = .idle → s.port = some p →
    decodeCommand p.cmd = some i → s.hubOpen = false →
    s.answers.hub = bad ++ rx :: rest → (∀ x ∈ bad, okHub x = none) → bad.length < s.cfg.maxAttempts →
    okHub rx = some b → mutation i (decodeStatus b) = none →
    ∃ t, Reaches (2 * bad.length + 5) s t ∧ t.ph = .done ∧ t.upc = 5 ∧ t.rxb = b ∧ t.status = decodeStatus b ∧
      t.txb = s.txb ∧ t.answers.hub = rest ∧ t.res.report = .ok (.status b (decodeStatus b)) ∧
      t.events = s.events ++ [.opened .hub] ++ withDelays ((bad ++ [rx]).map (.hubXfer s.cfg.statusReq)) ++
        [.result t.res]

/-- R279, R240, R325: when the write of a mutating command is accepted and a confirmation read then fails, the command ends
in BusFailure with the write sent, and nothing is restored. -/
def Obligations.FailedConfirmationRestoresNothing : Prop :=
  ∀ (i : Instr) (s : State) (bad rest : List (List Byte)),
    isMutating i = true → s.ph = .run → decodeCommand s.cmd = some i → (s.upc = 3 ∨ s.upc = 4) → s.pos = .start →
    s.hubOpen = true → s.answers.hub = bad ++ rest → (∀ x ∈ bad, okHub x = none) →
    bad.length = s.cfg.maxAttempts → 0 < s.cfg.maxAttempts →
    ∃ t, Reaches (2 * bad.length - 1) s t ∧ t.ph = .done ∧ t.status = s.status ∧ t.rxb = s.rxb ∧ t.txb = s.txb ∧
      t.upc = s.upc ∧ t.res.report = .failed (.busFailure s.cfg.maxAttempts) ∧
      (∃ es, t.events = s.events ++ es ∧ ∀ tx rx, .hubXfer tx rx ∈ es → tx = s.cfg.statusReq)

/-- R238: what a mutation writes into the brightness, and what it leaves of the other fields (R237). -/
def Obligations.BrightnessWritten : Prop :=
  ∀ (i : Instr) (s t : State),
    isMutating i = true → s.ph = .run → s.upc = 1 → exec i s = .next t → t.upc = 2 →
    t.status.lidOpen = s.status.lidOpen ∧
    (i ≠ .systemOff → t.status.powerOff = s.status.powerOff) ∧
    (i = .systemOff ∨ i = .backlightOff → t.status.brightness = s.status.brightness) ∧
    (i = .systemOff → t.status.screenOff = s.status.screenOff) ∧
    (i ≠ .systemOff → i ≠ .backlightOff → 1 ≤ t.status.brightness.toNat ∧ t.status.brightness.toNat ≤ 14 ∧
      t.status.screenOff = false) ∧
    (i = .backlightIncrease →
      t.status.brightness.toNat = s.status.brightness.toNat + 1 ∧ t.status.brightness.toNat ≤ 10) ∧
    (i = .backlightDecrease → t.status.brightness.toNat + 1 = s.status.brightness.toNat) ∧
    (i = .backlightOn → t.status.brightness = 5#4) ∧ (∀ q ∈ levelCommands, i = q.2 → t.status.brightness = q.1)

/-- R321: no step from a state of the invariant transmits a status byte 0x00: a transfer carries the status request or
`TXB`, and `TXB` is then not zero. -/
def Obligations.ZeroIsNeverTransmitted : Prop :=
  ∀ (s t : State) (tx : Byte) (rx : List Byte),
    s.Inv → step s = .next t → (∃ es, t.events = s.events ++ es ∧ .hubXfer tx rx ∈ es) →
    (tx = s.cfg.statusReq ∨ (tx = t.txb ∧ tx ≠ 0x00#8))

/-- R29, R211, R213 to R221: what a step of a hub command leaves alone. -/
def Obligations.HubFrame : Prop :=
  ∀ (i : Instr) (s t : State),
    isHub i = true → exec i s = .next t →
    t.raw = s.raw ∧ t.norm = s.norm ∧ t.dir = s.dir ∧ t.applied = s.applied ∧ t.regOpen = s.regOpen ∧ t.cfg = s.cfg ∧
    (s.ph ≠ .idle → t.cmd = s.cmd ∧ t.arg = s.arg ∧ t.argv = s.argv ∧ t.port = s.port) ∧
    (isReadOnly i = true → t.txb = s.txb) ∧ (s.upc ≠ 2 → t.txb = s.txb) ∧
    (s.upc = 1 ∨ s.upc = 2 → t.rxb = s.rxb) ∧ (s.upc = 2 → t.status = s.status) ∧
    (t.ph ≠ .done → t.res = s.res) ∧
    t.answers.gauge = s.answers.gauge ∧ t.answers.mixer = s.answers.mixer ∧ t.answers.probe = s.answers.probe ∧
    t.answers.fetch = s.answers.fetch

/-! ### Speaker commands -/

/-- R253, R77: MIX, whatever the mixer answers; the corrective call is a step of its own and its outcome is not looked at, and
the failure is a step of its own too. -/
def Obligations.MixerPrecondition : Prop :=
  ∀ (i : Instr) (s : State),
    needsOperand i = true → s.ph = .run → s.upc = 0 →
    (s.pos = .start → (drawMixer s).1 = none → exec i s = .next
      { s with pos := .raiseOwed, answers := (drawMixer s).2.answers, events := s.events ++ [.mixerQuery none] }) ∧
    (s.pos = .raiseOwed → exec i s = .next
      { s with
        ph := .done, pos := .start, res := { s.res with valid := true, err := 3#3 }
        events := s.events ++ [.result { s.res with valid := true, err := 3#3 }] }) ∧
    (s.pos = .start → (drawMixer s).1 = some s.cfg.mixerExpected → exec i s = .next
      { s with
        upc := 1, answers := (drawMixer s).2.answers
        events := s.events ++ [.mixerQuery (some s.cfg.mixerExpected)] }) ∧
    (∀ n, s.pos = .start → (drawMixer s).1 = some n → n ≠ s.cfg.mixerExpected → exec i s = .next
      { s with
        pos := .mixerSetOwed, answers := (drawMixer s).2.answers, events := s.events ++ [.mixerQuery (some n)] }) ∧
    (s.pos = .mixerSetOwed → exec i s = .next
      { s with upc := 1, pos := .start, events := s.events ++ [.mixerSet s.cfg.mixerExpected] })

/-- R254, R77: DIRCHK, both answers; the failure is a step of its own. -/
def Obligations.DirectiveSourceCheck : Prop :=
  ∀ (i : Instr) (s : State),
    needsOperand i = true → s.ph = .run → s.upc = 1 →
    (s.pos ≠ .raiseOwed → (drawProbe s).1 = true → exec i s = .next
      { s with
        upc := 2, pos := .start, answers := (drawProbe s).2.answers, events := s.events ++ [.dirProbe true] }) ∧
    (s.pos ≠ .raiseOwed → (drawProbe s).1 = false → exec i s = .next
      { s with pos := .raiseOwed, answers := (drawProbe s).2.answers, events := s.events ++ [.dirProbe false] }) ∧
    (s.pos = .raiseOwed → exec i s = .next
      { s with
        ph := .done, pos := .start, res := { s.res with valid := true, err := 2#3 }
        events := s.events ++ [.result { s.res with valid := true, err := 2#3 }] })

/-- R255, R257, R258: SPKOPEN and SPKCLOSE write the same register once, at the address `ARG`, and are not counted; the bus
opens first. -/
def Obligations.ConfigurationRegisterOpenedAndClosed : Prop :=
  ∀ (i : Instr) (s : State),
    needsOperand i = true → s.ph = .run → (s.upc = 2 ∨ s.upc = 4) →
    (s.regOpen = false → exec i s = .next
      { s with regOpen := true, events := s.events ++ [.opened .reg] }) ∧
    (s.regOpen = true → exec i s = .next
      { s with
        upc := s.upc + 1, pos := .start
        events := s.events ++ [.regWrite s.arg s.cfg.spkCfgReg
          (if s.upc = 2 then s.cfg.spkCfgOpen else s.cfg.spkCfgClose)] })

/-- R256: SPKREPLAY, one fetch or one write a step: `End` ends it, a matching directive is then written and counted, any
other is skipped. -/
def Obligations.DirectiveReplaySteps : Prop :=
  ∀ (i : Instr) (m : Tag) (s : State),
    modeOf i = some m → s.ph = .run → s.upc = 3 →
    (s.pos = .start → (drawFetch s).1 = none → exec i s = .next
      { s with upc := 4, answers := (drawFetch s).2.answers, events := s.events ++ [.dirFetch none] }) ∧
    (∀ d, s.pos = .start → (drawFetch s).1 = some d → (d.tag = .always ∨ d.tag = m) → exec i s = .next
      { s with
        pos := .directiveHeld d, answers := (drawFetch s).2.answers, events := s.events ++ [.dirFetch (some d)] }) ∧
    (∀ d, s.pos = .start → (drawFetch s).1 = some d → d.tag ≠ .always → d.tag ≠ m → exec i s = .next
      { s with answers := (drawFetch s).2.answers, events := s.events ++ [.dirFetch (some d)] }) ∧
    (∀ d, s.pos = .directiveHeld d → s.regOpen = true → exec i s = .next
      { s with
        pos := .start, applied := s.applied + 1, events := s.events ++ [.regWrite s.arg d.reg d.values] }) ∧
    (∀ d, s.pos = .directiveHeld d → s.regOpen = false → exec i s = .next
      { s with regOpen := true, events := s.events ++ [.opened .reg] })

/-- R252, R253 to R258, R313: a speaker command, the whole of it, with the mixer already right or corrected, over any list of
directives. -/
def Obligations.SpeakerCommand : Prop :=
  ∀ (i : Instr) (m : Tag) (s : State) (p : Presented) (n : Nat) (ds : List Directive) (rest : List (Option Directive))
    (mrest : List (Option Nat)) (prest : List Bool),
    modeOf i = some m → s.ph = .idle → s.port = some p → decodeCommand p.cmd = some i → p.argv = true →
    p.arg < 2 ^ s.cfg.addrW → s.regOpen = false → s.answers.mixer = some n :: mrest → s.answers.probe = true :: prest →
    s.answers.fetch = ds.map some ++ none :: rest →
    let fix : List Event := if n = s.cfg.mixerExpected then [] else [.mixerSet s.cfg.mixerExpected]
    let done : Nat := s.applied + (ds.filter (fun d => decide (d.tag = .always) || decide (d.tag = m))).length
    ∃ t, Reaches (7 + fix.length + replaySteps m ds) s t ∧ t.ph = .done ∧ t.applied = done ∧ t.att = s.att ∧
      t.res.report = .ok (.applied done) ∧
      t.events = s.events ++ [.mixerQuery (some n)] ++ fix ++
        [.dirProbe true, .opened .reg, .regWrite p.arg s.cfg.spkCfgReg s.cfg.spkCfgOpen] ++
        replayEvents p.arg m ds ++
        [.regWrite p.arg s.cfg.spkCfgReg s.cfg.spkCfgClose, .result t.res]

/-- R29, R252: what a step of a speaker command leaves alone. -/
def Obligations.SpeakerFrame : Prop :=
  ∀ (i : Instr) (s t : State),
    needsOperand i = true → exec i s = .next t →
    t.status = s.status ∧ t.rxb = s.rxb ∧ t.txb = s.txb ∧ t.raw = s.raw ∧ t.norm = s.norm ∧ t.dir = s.dir ∧
    t.att = s.att ∧ t.hubOpen = s.hubOpen ∧ t.cfg = s.cfg ∧
    (s.ph ≠ .idle → t.cmd = s.cmd ∧ t.arg = s.arg ∧ t.argv = s.argv ∧ t.port = s.port) ∧
    (s.upc ≠ 3 → t.applied = s.applied) ∧ (s.applied ≤ t.applied ∧ t.applied ≤ s.applied + 1) ∧
    (t.ph ≠ .done → t.res = s.res) ∧
    t.answers.hub = s.answers.hub ∧ t.answers.gauge = s.answers.gauge

/-! ### Whole-machine rules -/

/-- R278, R276: a running command that ends with a failure changes no register but `RES` and `PH` beyond the attempt it was
making: `ATT` and, in HSET, `TXB`. A failure of MIX or DIRCHK comes in a step that emits `Result` alone (R77). -/
def Obligations.FailureWritesOnlyTheResult : Prop :=
  ∀ (i : Instr) (s t : State),
    s.ph = .run → exec i s = .next t → t.ph = .done → t.res.err ≠ 0#3 →
    t.upc = s.upc ∧ t.status = s.status ∧ t.rxb = s.rxb ∧ t.raw = s.raw ∧ t.norm = s.norm ∧ t.dir = s.dir ∧
    t.applied = s.applied ∧ t.hubOpen = s.hubOpen ∧ t.regOpen = s.regOpen ∧ t.cmd = s.cmd ∧ t.arg = s.arg ∧
    t.argv = s.argv ∧ t.port = s.port ∧ t.cfg = s.cfg ∧ t.res.valid = true ∧ t.res.payload = s.res.payload ∧
    (hsetAt i s.upc = false → t.txb = s.txb) ∧
    (t.res.err ≠ 1#3 → t.att = s.att ∧ t.res.attempts = s.res.attempts) ∧
    (∃ es, t.events = s.events ++ es ++ [.result t.res] ∧ es.length ≤ 1) ∧
    (t.res.err ≠ 1#3 → t.events = s.events ++ [.result t.res] ∧ t.answers = s.answers)

/-- R276, R280: which running command can end with which failure, and at which micro-operation. -/
def Obligations.WhichFailureWhere : Prop :=
  ∀ (i : Instr) (s t : State),
    s.ph = .run → exec i s = .next t → t.ph = .done →
    (t.res.err = 0#3 ∧ s.upc = finIndex i) ∨
    (t.res.err = 1#3 ∧ t.res.attempts = s.cfg.maxAttempts ∧ pollsAt i s.upc s.dir = true) ∨
    (t.res.err = 2#3 ∧ needsOperand i = true ∧ s.upc = 1) ∨
    (t.res.err = 3#3 ∧ needsOperand i = true ∧ s.upc = 0)

/-- R25, R236: while a command runs `UPC` never decreases, goes up by one or to 5, and stays within the command's list. -/
def Obligations.MicroProgramCounterOnlyRises : Prop :=
  ∀ (i : Instr) (s t : State),
    s.ph = .run → exec i s = .next t →
    (t.upc = s.upc ∨ t.upc = s.upc + 1 ∨
      (t.upc = 5 ∧ s.upc = 1 ∧ (i = .backlightIncrease ∨ i = .backlightDecrease))) ∧
    t.upc ≤ finIndex i

/-- R37, R76: a handle once open stays open, and it opens in exactly the steps that emit its `Open` event. R7, R34: no step
changes the configuration. -/
def Obligations.HandlesAndConfigurationStay : Prop :=
  ∀ s t : State,
    step s = .next t →
    t.cfg = s.cfg ∧ (s.hubOpen = true → t.hubOpen = true) ∧ (s.regOpen = true → t.regOpen = true) ∧
    (s.hubOpen = false → (t.hubOpen = true ↔ t.events = s.events ++ [.opened .hub])) ∧
    (s.regOpen = false → (t.regOpen = true ↔ t.events = s.events ++ [.opened .reg]))

/-- R18, R73, R77: events are only added, in order; a step adds none, or one. The one exception is R177 (e)'s: the last
rejected attempt of a poll, whose step adds its transaction and, for BusFailure, the `Result` after it. A `Result` carries
`RES` as it stands after the step. -/
def Obligations.AtMostOneEventAndTheResult : Prop :=
  ∀ s t : State,
    step s = .next t →
    t.events = s.events ∨
    (∃ e, t.events = s.events ++ [e] ∧ ∀ r, e = .result r → t.ph = .done ∧ r = t.res) ∨
    (∃ e, ((∃ tx rx, e = .hubXfer tx rx) ∨ ∃ a r v, e = .regRead a r 2 v) ∧ s.ph = .run ∧ t.ph = .done ∧
      t.res.err = 1#3 ∧ t.events = s.events ++ [e, .result t.res])

/-- The invariant holds at reset. It speaks of the values the spec gives for reset and of the default budget of 20. -/
def Obligations.InvariantAtReset : Prop := State.reset.Inv

/-- The invariant (R20, R22, R25, R31, R38, R61, R171 of polls, R196, R198, R275, R276, R321) is kept by every step, from every
state that meets it. -/
def Obligations.InvariantKeptByEveryStep : Prop := ∀ s t : State, s.Inv → step s = .next t → t.Inv

/-- No fault and no refusal: from a state of the invariant a step always answers a next state. -/
def Obligations.NoStepFaultsUnderTheInvariant : Prop := ∀ s : State, s.Inv → ∃ t, step s = .next t

/-- R165, R236, R340: a battery or hub command always comes to its result, within the steps its polls can take: at most four
polls of `MAX_ATTEMPTS` attempts each. -/
def Obligations.EveryPolledCommandEnds : Prop :=
  ∀ (s : State) (i : Instr),
    s.Inv → s.ph = .run → decodeCommand s.cmd = some i → needsOperand i = false →
    ∃ n t, n ≤ 8 * s.cfg.maxAttempts + 4 ∧ Reaches n s t ∧ t.ph = .done

/-- R30: no rule reads a register before it is written. Two idle blocks that differ only in the registers that have no value
at reset emit the same events and come to the same result, step for step: a `Result` event carries `RES` whole, so events are
compared in what is meaningful in them (R32). -/
def Obligations.UnwrittenRegistersAreNotRead : Prop :=
  ∀ (s t : State) (n : Nat) (cmd : Byte) (arg : Nat) (argv : Bool) (h : HubStatus) (rxb txb : Byte) (raw : Word)
    (norm : Int) (err : BitVec 3) (attempts : Nat) (payload : Payload),
    s.ph = .idle → Reaches n s t →
    ∃ t', Reaches n
        { s with
          cmd := cmd, arg := arg, argv := argv, status := h, rxb := rxb, txb := txb, raw := raw, norm := norm
          res := { s.res with err := err, attempts := attempts, payload := payload } } t' ∧
      t'.events.map Event.meaningful = t.events.map Event.meaningful ∧
      t'.ph = t.ph ∧ t'.upc = t.upc ∧ t'.att = t.att ∧ t'.dir = t.dir ∧
      t'.applied = t.applied ∧ (t.ph = .done → t'.res.report = t.res.report)
end

