-- ==== Sys2Proof/Laws/State.lean ====
section
/-! SUPPORT. One lemma for each field of the state and each update of it: what the update leaves there. -/

namespace Sys2Proof.Machine

/-! ### `State.emit` -/

@[simp] theorem State.emit_ph (s : State) (e : Event) : (s.emit e).ph = s.ph := rfl
@[simp] theorem State.emit_cmd (s : State) (e : Event) : (s.emit e).cmd = s.cmd := rfl
@[simp] theorem State.emit_arg (s : State) (e : Event) : (s.emit e).arg = s.arg := rfl
@[simp] theorem State.emit_argv (s : State) (e : Event) : (s.emit e).argv = s.argv := rfl
@[simp] theorem State.emit_upc (s : State) (e : Event) : (s.emit e).upc = s.upc := rfl
@[simp] theorem State.emit_att (s : State) (e : Event) : (s.emit e).att = s.att := rfl
@[simp] theorem State.emit_status (s : State) (e : Event) : (s.emit e).status = s.status := rfl
@[simp] theorem State.emit_rxb (s : State) (e : Event) : (s.emit e).rxb = s.rxb := rfl
@[simp] theorem State.emit_txb (s : State) (e : Event) : (s.emit e).txb = s.txb := rfl
@[simp] theorem State.emit_raw (s : State) (e : Event) : (s.emit e).raw = s.raw := rfl
@[simp] theorem State.emit_norm (s : State) (e : Event) : (s.emit e).norm = s.norm := rfl
@[simp] theorem State.emit_dir (s : State) (e : Event) : (s.emit e).dir = s.dir := rfl
@[simp] theorem State.emit_applied (s : State) (e : Event) : (s.emit e).applied = s.applied := rfl
@[simp] theorem State.emit_hubOpen (s : State) (e : Event) : (s.emit e).hubOpen = s.hubOpen := rfl
@[simp] theorem State.emit_regOpen (s : State) (e : Event) : (s.emit e).regOpen = s.regOpen := rfl
@[simp] theorem State.emit_res (s : State) (e : Event) : (s.emit e).res = s.res := rfl
@[simp] theorem State.emit_pos (s : State) (e : Event) : (s.emit e).pos = s.pos := rfl
@[simp] theorem State.emit_port (s : State) (e : Event) : (s.emit e).port = s.port := rfl
@[simp] theorem State.emit_answers (s : State) (e : Event) : (s.emit e).answers = s.answers := rfl
@[simp] theorem State.emit_events (s : State) (e : Event) : (s.emit e).events = s.events ++ [e] := rfl
@[simp] theorem State.emit_cfg (s : State) (e : Event) : (s.emit e).cfg = s.cfg := rfl

/-! ### `State.advance` -/

@[simp] theorem State.advance_ph (s : State) : (s.advance).ph = s.ph := rfl
@[simp] theorem State.advance_cmd (s : State) : (s.advance).cmd = s.cmd := rfl
@[simp] theorem State.advance_arg (s : State) : (s.advance).arg = s.arg := rfl
@[simp] theorem State.advance_argv (s : State) : (s.advance).argv = s.argv := rfl
@[simp] theorem State.advance_upc (s : State) : (s.advance).upc = s.upc + 1 := rfl
@[simp] theorem State.advance_att (s : State) : (s.advance).att = s.att := rfl
@[simp] theorem State.advance_status (s : State) : (s.advance).status = s.status := rfl
@[simp] theorem State.advance_rxb (s : State) : (s.advance).rxb = s.rxb := rfl
@[simp] theorem State.advance_txb (s : State) : (s.advance).txb = s.txb := rfl
@[simp] theorem State.advance_raw (s : State) : (s.advance).raw = s.raw := rfl
@[simp] theorem State.advance_norm (s : State) : (s.advance).norm = s.norm := rfl
@[simp] theorem State.advance_dir (s : State) : (s.advance).dir = s.dir := rfl
@[simp] theorem State.advance_applied (s : State) : (s.advance).applied = s.applied := rfl
@[simp] theorem State.advance_hubOpen (s : State) : (s.advance).hubOpen = s.hubOpen := rfl
@[simp] theorem State.advance_regOpen (s : State) : (s.advance).regOpen = s.regOpen := rfl
@[simp] theorem State.advance_res (s : State) : (s.advance).res = s.res := rfl
@[simp] theorem State.advance_pos (s : State) : (s.advance).pos = .start := rfl
@[simp] theorem State.advance_port (s : State) : (s.advance).port = s.port := rfl
@[simp] theorem State.advance_answers (s : State) : (s.advance).answers = s.answers := rfl
@[simp] theorem State.advance_events (s : State) : (s.advance).events = s.events := rfl
@[simp] theorem State.advance_cfg (s : State) : (s.advance).cfg = s.cfg := rfl

/-! ### `State.goTo` -/

@[simp] theorem State.goTo_ph (s : State) (p : MicroPos) : (s.goTo p).ph = s.ph := rfl
@[simp] theorem State.goTo_cmd (s : State) (p : MicroPos) : (s.goTo p).cmd = s.cmd := rfl
@[simp] theorem State.goTo_arg (s : State) (p : MicroPos) : (s.goTo p).arg = s.arg := rfl
@[simp] theorem State.goTo_argv (s : State) (p : MicroPos) : (s.goTo p).argv = s.argv := rfl
@[simp] theorem State.goTo_upc (s : State) (p : MicroPos) : (s.goTo p).upc = s.upc := rfl
@[simp] theorem State.goTo_att (s : State) (p : MicroPos) : (s.goTo p).att = s.att := rfl
@[simp] theorem State.goTo_status (s : State) (p : MicroPos) : (s.goTo p).status = s.status := rfl
@[simp] theorem State.goTo_rxb (s : State) (p : MicroPos) : (s.goTo p).rxb = s.rxb := rfl
@[simp] theorem State.goTo_txb (s : State) (p : MicroPos) : (s.goTo p).txb = s.txb := rfl
@[simp] theorem State.goTo_raw (s : State) (p : MicroPos) : (s.goTo p).raw = s.raw := rfl
@[simp] theorem State.goTo_norm (s : State) (p : MicroPos) : (s.goTo p).norm = s.norm := rfl
@[simp] theorem State.goTo_dir (s : State) (p : MicroPos) : (s.goTo p).dir = s.dir := rfl
@[simp] theorem State.goTo_applied (s : State) (p : MicroPos) : (s.goTo p).applied = s.applied := rfl
@[simp] theorem State.goTo_hubOpen (s : State) (p : MicroPos) : (s.goTo p).hubOpen = s.hubOpen := rfl
@[simp] theorem State.goTo_regOpen (s : State) (p : MicroPos) : (s.goTo p).regOpen = s.regOpen := rfl
@[simp] theorem State.goTo_res (s : State) (p : MicroPos) : (s.goTo p).res = s.res := rfl
@[simp] theorem State.goTo_pos (s : State) (p : MicroPos) : (s.goTo p).pos = p := rfl
@[simp] theorem State.goTo_port (s : State) (p : MicroPos) : (s.goTo p).port = s.port := rfl
@[simp] theorem State.goTo_answers (s : State) (p : MicroPos) : (s.goTo p).answers = s.answers := rfl
@[simp] theorem State.goTo_events (s : State) (p : MicroPos) : (s.goTo p).events = s.events := rfl
@[simp] theorem State.goTo_cfg (s : State) (p : MicroPos) : (s.goTo p).cfg = s.cfg := rfl

/-! ### `raise` -/

@[simp] theorem raise_ph (f : Failure) (s : State) : (raise f s).ph = .done := rfl
@[simp] theorem raise_cmd (f : Failure) (s : State) : (raise f s).cmd = s.cmd := rfl
@[simp] theorem raise_arg (f : Failure) (s : State) : (raise f s).arg = s.arg := rfl
@[simp] theorem raise_argv (f : Failure) (s : State) : (raise f s).argv = s.argv := rfl
@[simp] theorem raise_upc (f : Failure) (s : State) : (raise f s).upc = s.upc := rfl
@[simp] theorem raise_att (f : Failure) (s : State) : (raise f s).att = s.att := rfl
@[simp] theorem raise_status (f : Failure) (s : State) : (raise f s).status = s.status := rfl
@[simp] theorem raise_rxb (f : Failure) (s : State) : (raise f s).rxb = s.rxb := rfl
@[simp] theorem raise_txb (f : Failure) (s : State) : (raise f s).txb = s.txb := rfl
@[simp] theorem raise_raw (f : Failure) (s : State) : (raise f s).raw = s.raw := rfl
@[simp] theorem raise_norm (f : Failure) (s : State) : (raise f s).norm = s.norm := rfl
@[simp] theorem raise_dir (f : Failure) (s : State) : (raise f s).dir = s.dir := rfl
@[simp] theorem raise_applied (f : Failure) (s : State) : (raise f s).applied = s.applied := rfl
@[simp] theorem raise_hubOpen (f : Failure) (s : State) : (raise f s).hubOpen = s.hubOpen := rfl
@[simp] theorem raise_regOpen (f : Failure) (s : State) : (raise f s).regOpen = s.regOpen := rfl
@[simp] theorem raise_res (f : Failure) (s : State) : (raise f s).res = s.res.fail f := rfl
@[simp] theorem raise_pos (f : Failure) (s : State) : (raise f s).pos = .start := rfl
@[simp] theorem raise_port (f : Failure) (s : State) : (raise f s).port = s.port := rfl
@[simp] theorem raise_answers (f : Failure) (s : State) : (raise f s).answers = s.answers := rfl
@[simp] theorem raise_events (f : Failure) (s : State) : (raise f s).events = s.events ++ [.result (s.res.fail f)] := rfl
@[simp] theorem raise_cfg (f : Failure) (s : State) : (raise f s).cfg = s.cfg := rfl

/-! ### `finish` -/

@[simp] theorem finish_ph (p : Payload) (s : State) : (finish p s).ph = .done := rfl
@[simp] theorem finish_cmd (p : Payload) (s : State) : (finish p s).cmd = s.cmd := rfl
@[simp] theorem finish_arg (p : Payload) (s : State) : (finish p s).arg = s.arg := rfl
@[simp] theorem finish_argv (p : Payload) (s : State) : (finish p s).argv = s.argv := rfl
@[simp] theorem finish_upc (p : Payload) (s : State) : (finish p s).upc = s.upc := rfl
@[simp] theorem finish_att (p : Payload) (s : State) : (finish p s).att = s.att := rfl
@[simp] theorem finish_status (p : Payload) (s : State) : (finish p s).status = s.status := rfl
@[simp] theorem finish_rxb (p : Payload) (s : State) : (finish p s).rxb = s.rxb := rfl
@[simp] theorem finish_txb (p : Payload) (s : State) : (finish p s).txb = s.txb := rfl
@[simp] theorem finish_raw (p : Payload) (s : State) : (finish p s).raw = s.raw := rfl
@[simp] theorem finish_norm (p : Payload) (s : State) : (finish p s).norm = s.norm := rfl
@[simp] theorem finish_dir (p : Payload) (s : State) : (finish p s).dir = s.dir := rfl
@[simp] theorem finish_applied (p : Payload) (s : State) : (finish p s).applied = s.applied := rfl
@[simp] theorem finish_hubOpen (p : Payload) (s : State) : (finish p s).hubOpen = s.hubOpen := rfl
@[simp] theorem finish_regOpen (p : Payload) (s : State) : (finish p s).regOpen = s.regOpen := rfl
@[simp] theorem finish_res (p : Payload) (s : State) : (finish p s).res = s.res.ok p := rfl
@[simp] theorem finish_pos (p : Payload) (s : State) : (finish p s).pos = .start := rfl
@[simp] theorem finish_port (p : Payload) (s : State) : (finish p s).port = s.port := rfl
@[simp] theorem finish_answers (p : Payload) (s : State) : (finish p s).answers = s.answers := rfl
@[simp] theorem finish_events (p : Payload) (s : State) : (finish p s).events = s.events ++ [.result (s.res.ok p)] := rfl
@[simp] theorem finish_cfg (p : Payload) (s : State) : (finish p s).cfg = s.cfg := rfl

/-! ### `latch` -/

@[simp] theorem latch_ph (p : Presented) (s : State) : (latch p s).ph = s.ph := rfl
@[simp] theorem latch_cmd (p : Presented) (s : State) : (latch p s).cmd = p.cmd := rfl
@[simp] theorem latch_arg (p : Presented) (s : State) : (latch p s).arg = latchArg s.cfg p.arg := rfl
@[simp] theorem latch_argv (p : Presented) (s : State) : (latch p s).argv = p.argv := rfl
@[simp] theorem latch_upc (p : Presented) (s : State) : (latch p s).upc = 0 := rfl
@[simp] theorem latch_att (p : Presented) (s : State) : (latch p s).att = s.att := rfl
@[simp] theorem latch_status (p : Presented) (s : State) : (latch p s).status = s.status := rfl
@[simp] theorem latch_rxb (p : Presented) (s : State) : (latch p s).rxb = s.rxb := rfl
@[simp] theorem latch_txb (p : Presented) (s : State) : (latch p s).txb = s.txb := rfl
@[simp] theorem latch_raw (p : Presented) (s : State) : (latch p s).raw = s.raw := rfl
@[simp] theorem latch_norm (p : Presented) (s : State) : (latch p s).norm = s.norm := rfl
@[simp] theorem latch_dir (p : Presented) (s : State) : (latch p s).dir = s.dir := rfl
@[simp] theorem latch_applied (p : Presented) (s : State) : (latch p s).applied = s.applied := rfl
@[simp] theorem latch_hubOpen (p : Presented) (s : State) : (latch p s).hubOpen = s.hubOpen := rfl
@[simp] theorem latch_regOpen (p : Presented) (s : State) : (latch p s).regOpen = s.regOpen := rfl
@[simp] theorem latch_res (p : Presented) (s : State) : (latch p s).res = s.res := rfl
@[simp] theorem latch_pos (p : Presented) (s : State) : (latch p s).pos = .start := rfl
@[simp] theorem latch_port (p : Presented) (s : State) : (latch p s).port = none := rfl
@[simp] theorem latch_answers (p : Presented) (s : State) : (latch p s).answers = s.answers := rfl
@[simp] theorem latch_events (p : Presented) (s : State) : (latch p s).events = s.events := rfl
@[simp] theorem latch_cfg (p : Presented) (s : State) : (latch p s).cfg = s.cfg := rfl

/-! ### `takeStatus` -/

@[simp] theorem takeStatus_ph (b : Byte) (s : State) : (takeStatus b s).ph = s.ph := rfl
@[simp] theorem takeStatus_cmd (b : Byte) (s : State) : (takeStatus b s).cmd = s.cmd := rfl
@[simp] theorem takeStatus_arg (b : Byte) (s : State) : (takeStatus b s).arg = s.arg := rfl
@[simp] theorem takeStatus_argv (b : Byte) (s : State) : (takeStatus b s).argv = s.argv := rfl
@[simp] theorem takeStatus_upc (b : Byte) (s : State) : (takeStatus b s).upc = s.upc := rfl
@[simp] theorem takeStatus_att (b : Byte) (s : State) : (takeStatus b s).att = s.att := rfl
@[simp] theorem takeStatus_status (b : Byte) (s : State) : (takeStatus b s).status = decodeStatus b := rfl
@[simp] theorem takeStatus_rxb (b : Byte) (s : State) : (takeStatus b s).rxb = b := rfl
@[simp] theorem takeStatus_txb (b : Byte) (s : State) : (takeStatus b s).txb = s.txb := rfl
@[simp] theorem takeStatus_raw (b : Byte) (s : State) : (takeStatus b s).raw = s.raw := rfl
@[simp] theorem takeStatus_norm (b : Byte) (s : State) : (takeStatus b s).norm = s.norm := rfl
@[simp] theorem takeStatus_dir (b : Byte) (s : State) : (takeStatus b s).dir = s.dir := rfl
@[simp] theorem takeStatus_applied (b : Byte) (s : State) : (takeStatus b s).applied = s.applied := rfl
@[simp] theorem takeStatus_hubOpen (b : Byte) (s : State) : (takeStatus b s).hubOpen = s.hubOpen := rfl
@[simp] theorem takeStatus_regOpen (b : Byte) (s : State) : (takeStatus b s).regOpen = s.regOpen := rfl
@[simp] theorem takeStatus_res (b : Byte) (s : State) : (takeStatus b s).res = s.res := rfl
@[simp] theorem takeStatus_pos (b : Byte) (s : State) : (takeStatus b s).pos = s.pos := rfl
@[simp] theorem takeStatus_port (b : Byte) (s : State) : (takeStatus b s).port = s.port := rfl
@[simp] theorem takeStatus_answers (b : Byte) (s : State) : (takeStatus b s).answers = s.answers := rfl
@[simp] theorem takeStatus_events (b : Byte) (s : State) : (takeStatus b s).events = s.events := rfl
@[simp] theorem takeStatus_cfg (b : Byte) (s : State) : (takeStatus b s).cfg = s.cfg := rfl

/-! ### `regWrite` -/

@[simp] theorem regWrite_ph (r : Byte) (v : ByteSeq) (s : State) : (regWrite r v s).ph = s.ph := rfl
@[simp] theorem regWrite_cmd (r : Byte) (v : ByteSeq) (s : State) : (regWrite r v s).cmd = s.cmd := rfl
@[simp] theorem regWrite_arg (r : Byte) (v : ByteSeq) (s : State) : (regWrite r v s).arg = s.arg := rfl
@[simp] theorem regWrite_argv (r : Byte) (v : ByteSeq) (s : State) : (regWrite r v s).argv = s.argv := rfl
@[simp] theorem regWrite_upc (r : Byte) (v : ByteSeq) (s : State) : (regWrite r v s).upc = s.upc := rfl
@[simp] theorem regWrite_att (r : Byte) (v : ByteSeq) (s : State) : (regWrite r v s).att = s.att := rfl
@[simp] theorem regWrite_status (r : Byte) (v : ByteSeq) (s : State) : (regWrite r v s).status = s.status := rfl
@[simp] theorem regWrite_rxb (r : Byte) (v : ByteSeq) (s : State) : (regWrite r v s).rxb = s.rxb := rfl
@[simp] theorem regWrite_txb (r : Byte) (v : ByteSeq) (s : State) : (regWrite r v s).txb = s.txb := rfl
@[simp] theorem regWrite_raw (r : Byte) (v : ByteSeq) (s : State) : (regWrite r v s).raw = s.raw := rfl
@[simp] theorem regWrite_norm (r : Byte) (v : ByteSeq) (s : State) : (regWrite r v s).norm = s.norm := rfl
@[simp] theorem regWrite_dir (r : Byte) (v : ByteSeq) (s : State) : (regWrite r v s).dir = s.dir := rfl
@[simp] theorem regWrite_applied (r : Byte) (v : ByteSeq) (s : State) : (regWrite r v s).applied = s.applied := rfl
@[simp] theorem regWrite_hubOpen (r : Byte) (v : ByteSeq) (s : State) : (regWrite r v s).hubOpen = s.hubOpen := rfl
@[simp] theorem regWrite_regOpen (r : Byte) (v : ByteSeq) (s : State) : (regWrite r v s).regOpen = s.regOpen := rfl
@[simp] theorem regWrite_res (r : Byte) (v : ByteSeq) (s : State) : (regWrite r v s).res = s.res := rfl
@[simp] theorem regWrite_pos (r : Byte) (v : ByteSeq) (s : State) : (regWrite r v s).pos = s.pos := rfl
@[simp] theorem regWrite_port (r : Byte) (v : ByteSeq) (s : State) : (regWrite r v s).port = s.port := rfl
@[simp] theorem regWrite_answers (r : Byte) (v : ByteSeq) (s : State) : (regWrite r v s).answers = s.answers := rfl
@[simp] theorem regWrite_events (r : Byte) (v : ByteSeq) (s : State) : (regWrite r v s).events = s.events ++ [.regWrite s.arg r v] := rfl
@[simp] theorem regWrite_cfg (r : Byte) (v : ByteSeq) (s : State) : (regWrite r v s).cfg = s.cfg := rfl

/-! ### `classify` -/

@[simp] theorem classify_ph (s : State) : (classify s).ph = s.ph := rfl
@[simp] theorem classify_cmd (s : State) : (classify s).cmd = s.cmd := rfl
@[simp] theorem classify_arg (s : State) : (classify s).arg = s.arg := rfl
@[simp] theorem classify_argv (s : State) : (classify s).argv = s.argv := rfl
@[simp] theorem classify_upc (s : State) : (classify s).upc = s.upc + 1 := rfl
@[simp] theorem classify_att (s : State) : (classify s).att = s.att := rfl
@[simp] theorem classify_status (s : State) : (classify s).status = s.status := rfl
@[simp] theorem classify_rxb (s : State) : (classify s).rxb = s.rxb := rfl
@[simp] theorem classify_txb (s : State) : (classify s).txb = s.txb := rfl
@[simp] theorem classify_raw (s : State) : (classify s).raw = s.raw := rfl
@[simp] theorem classify_norm (s : State) : (classify s).norm = normalise s.raw := rfl
@[simp] theorem classify_dir (s : State) : (classify s).dir = directionOf (normalise s.raw) := rfl
@[simp] theorem classify_applied (s : State) : (classify s).applied = s.applied := rfl
@[simp] theorem classify_hubOpen (s : State) : (classify s).hubOpen = s.hubOpen := rfl
@[simp] theorem classify_regOpen (s : State) : (classify s).regOpen = s.regOpen := rfl
@[simp] theorem classify_res (s : State) : (classify s).res = s.res := rfl
@[simp] theorem classify_pos (s : State) : (classify s).pos = .start := rfl
@[simp] theorem classify_port (s : State) : (classify s).port = s.port := rfl
@[simp] theorem classify_answers (s : State) : (classify s).answers = s.answers := rfl
@[simp] theorem classify_events (s : State) : (classify s).events = s.events := rfl
@[simp] theorem classify_cfg (s : State) : (classify s).cfg = s.cfg := rfl

/-! ### `mutTo` -/

@[simp] theorem mutTo_ph (h : HubStatus) (s : State) : (mutTo h s).ph = s.ph := rfl
@[simp] theorem mutTo_cmd (h : HubStatus) (s : State) : (mutTo h s).cmd = s.cmd := rfl
@[simp] theorem mutTo_arg (h : HubStatus) (s : State) : (mutTo h s).arg = s.arg := rfl
@[simp] theorem mutTo_argv (h : HubStatus) (s : State) : (mutTo h s).argv = s.argv := rfl
@[simp] theorem mutTo_upc (h : HubStatus) (s : State) : (mutTo h s).upc = 2 := rfl
@[simp] theorem mutTo_att (h : HubStatus) (s : State) : (mutTo h s).att = s.att := rfl
@[simp] theorem mutTo_status (h : HubStatus) (s : State) : (mutTo h s).status = h := rfl
@[simp] theorem mutTo_rxb (h : HubStatus) (s : State) : (mutTo h s).rxb = s.rxb := rfl
@[simp] theorem mutTo_txb (h : HubStatus) (s : State) : (mutTo h s).txb = s.txb := rfl
@[simp] theorem mutTo_raw (h : HubStatus) (s : State) : (mutTo h s).raw = s.raw := rfl
@[simp] theorem mutTo_norm (h : HubStatus) (s : State) : (mutTo h s).norm = s.norm := rfl
@[simp] theorem mutTo_dir (h : HubStatus) (s : State) : (mutTo h s).dir = s.dir := rfl
@[simp] theorem mutTo_applied (h : HubStatus) (s : State) : (mutTo h s).applied = s.applied := rfl
@[simp] theorem mutTo_hubOpen (h : HubStatus) (s : State) : (mutTo h s).hubOpen = s.hubOpen := rfl
@[simp] theorem mutTo_regOpen (h : HubStatus) (s : State) : (mutTo h s).regOpen = s.regOpen := rfl
@[simp] theorem mutTo_res (h : HubStatus) (s : State) : (mutTo h s).res = s.res := rfl
@[simp] theorem mutTo_pos (h : HubStatus) (s : State) : (mutTo h s).pos = .start := rfl
@[simp] theorem mutTo_port (h : HubStatus) (s : State) : (mutTo h s).port = s.port := rfl
@[simp] theorem mutTo_answers (h : HubStatus) (s : State) : (mutTo h s).answers = s.answers := rfl
@[simp] theorem mutTo_events (h : HubStatus) (s : State) : (mutTo h s).events = s.events := rfl
@[simp] theorem mutTo_cfg (h : HubStatus) (s : State) : (mutTo h s).cfg = s.cfg := rfl

/-! ### `mutSkip` -/

@[simp] theorem mutSkip_ph (s : State) : (mutSkip s).ph = s.ph := rfl
@[simp] theorem mutSkip_cmd (s : State) : (mutSkip s).cmd = s.cmd := rfl
@[simp] theorem mutSkip_arg (s : State) : (mutSkip s).arg = s.arg := rfl
@[simp] theorem mutSkip_argv (s : State) : (mutSkip s).argv = s.argv := rfl
@[simp] theorem mutSkip_upc (s : State) : (mutSkip s).upc = 5 := rfl
@[simp] theorem mutSkip_att (s : State) : (mutSkip s).att = s.att := rfl
@[simp] theorem mutSkip_status (s : State) : (mutSkip s).status = s.status := rfl
@[simp] theorem mutSkip_rxb (s : State) : (mutSkip s).rxb = s.rxb := rfl
@[simp] theorem mutSkip_txb (s : State) : (mutSkip s).txb = s.txb := rfl
@[simp] theorem mutSkip_raw (s : State) : (mutSkip s).raw = s.raw := rfl
@[simp] theorem mutSkip_norm (s : State) : (mutSkip s).norm = s.norm := rfl
@[simp] theorem mutSkip_dir (s : State) : (mutSkip s).dir = s.dir := rfl
@[simp] theorem mutSkip_applied (s : State) : (mutSkip s).applied = s.applied := rfl
@[simp] theorem mutSkip_hubOpen (s : State) : (mutSkip s).hubOpen = s.hubOpen := rfl
@[simp] theorem mutSkip_regOpen (s : State) : (mutSkip s).regOpen = s.regOpen := rfl
@[simp] theorem mutSkip_res (s : State) : (mutSkip s).res = s.res := rfl
@[simp] theorem mutSkip_pos (s : State) : (mutSkip s).pos = .start := rfl
@[simp] theorem mutSkip_port (s : State) : (mutSkip s).port = s.port := rfl
@[simp] theorem mutSkip_answers (s : State) : (mutSkip s).answers = s.answers := rfl
@[simp] theorem mutSkip_events (s : State) : (mutSkip s).events = s.events := rfl
@[simp] theorem mutSkip_cfg (s : State) : (mutSkip s).cfg = s.cfg := rfl

/-! ### `present` -/

@[simp] theorem present_ph (p : Presented) (s : State) : (present p s).ph = s.ph := rfl
@[simp] theorem present_cmd (p : Presented) (s : State) : (present p s).cmd = s.cmd := rfl
@[simp] theorem present_arg (p : Presented) (s : State) : (present p s).arg = s.arg := rfl
@[simp] theorem present_argv (p : Presented) (s : State) : (present p s).argv = s.argv := rfl
@[simp] theorem present_upc (p : Presented) (s : State) : (present p s).upc = s.upc := rfl
@[simp] theorem present_att (p : Presented) (s : State) : (present p s).att = s.att := rfl
@[simp] theorem present_status (p : Presented) (s : State) : (present p s).status = s.status := rfl
@[simp] theorem present_rxb (p : Presented) (s : State) : (present p s).rxb = s.rxb := rfl
@[simp] theorem present_txb (p : Presented) (s : State) : (present p s).txb = s.txb := rfl
@[simp] theorem present_raw (p : Presented) (s : State) : (present p s).raw = s.raw := rfl
@[simp] theorem present_norm (p : Presented) (s : State) : (present p s).norm = s.norm := rfl
@[simp] theorem present_dir (p : Presented) (s : State) : (present p s).dir = s.dir := rfl
@[simp] theorem present_applied (p : Presented) (s : State) : (present p s).applied = s.applied := rfl
@[simp] theorem present_hubOpen (p : Presented) (s : State) : (present p s).hubOpen = s.hubOpen := rfl
@[simp] theorem present_regOpen (p : Presented) (s : State) : (present p s).regOpen = s.regOpen := rfl
@[simp] theorem present_res (p : Presented) (s : State) : (present p s).res = s.res := rfl
@[simp] theorem present_pos (p : Presented) (s : State) : (present p s).pos = s.pos := rfl
@[simp] theorem present_port (p : Presented) (s : State) : (present p s).port = some p := rfl
@[simp] theorem present_answers (p : Presented) (s : State) : (present p s).answers = s.answers := rfl
@[simp] theorem present_events (p : Presented) (s : State) : (present p s).events = s.events := rfl
@[simp] theorem present_cfg (p : Presented) (s : State) : (present p s).cfg = s.cfg := rfl

/-! ### `State.openBus` -/

@[simp] theorem State.openBus_ph (s : State) (b : Bus) : (s.openBus b).ph = s.ph := by cases b <;> rfl
@[simp] theorem State.openBus_cmd (s : State) (b : Bus) : (s.openBus b).cmd = s.cmd := by cases b <;> rfl
@[simp] theorem State.openBus_arg (s : State) (b : Bus) : (s.openBus b).arg = s.arg := by cases b <;> rfl
@[simp] theorem State.openBus_argv (s : State) (b : Bus) : (s.openBus b).argv = s.argv := by cases b <;> rfl
@[simp] theorem State.openBus_upc (s : State) (b : Bus) : (s.openBus b).upc = s.upc := by cases b <;> rfl
@[simp] theorem State.openBus_att (s : State) (b : Bus) : (s.openBus b).att = s.att := by cases b <;> rfl
@[simp] theorem State.openBus_status (s : State) (b : Bus) : (s.openBus b).status = s.status := by cases b <;> rfl
@[simp] theorem State.openBus_rxb (s : State) (b : Bus) : (s.openBus b).rxb = s.rxb := by cases b <;> rfl
@[simp] theorem State.openBus_txb (s : State) (b : Bus) : (s.openBus b).txb = s.txb := by cases b <;> rfl
@[simp] theorem State.openBus_raw (s : State) (b : Bus) : (s.openBus b).raw = s.raw := by cases b <;> rfl
@[simp] theorem State.openBus_norm (s : State) (b : Bus) : (s.openBus b).norm = s.norm := by cases b <;> rfl
@[simp] theorem State.openBus_dir (s : State) (b : Bus) : (s.openBus b).dir = s.dir := by cases b <;> rfl
@[simp] theorem State.openBus_applied (s : State) (b : Bus) : (s.openBus b).applied = s.applied := by cases b <;> rfl
@[simp] theorem State.openBus_res (s : State) (b : Bus) : (s.openBus b).res = s.res := by cases b <;> rfl
@[simp] theorem State.openBus_pos (s : State) (b : Bus) : (s.openBus b).pos = s.pos := by cases b <;> rfl
@[simp] theorem State.openBus_port (s : State) (b : Bus) : (s.openBus b).port = s.port := by cases b <;> rfl
@[simp] theorem State.openBus_answers (s : State) (b : Bus) : (s.openBus b).answers = s.answers := by cases b <;> rfl
@[simp] theorem State.openBus_events (s : State) (b : Bus) : (s.openBus b).events = s.events ++ [.opened b] := by cases b <;> rfl
@[simp] theorem State.openBus_cfg (s : State) (b : Bus) : (s.openBus b).cfg = s.cfg := by cases b <;> rfl

/-! ### `loadTxb` -/

@[simp] theorem loadTxb_ph (s : State) : (loadTxb s).ph = s.ph := by unfold loadTxb; split <;> rfl
@[simp] theorem loadTxb_cmd (s : State) : (loadTxb s).cmd = s.cmd := by unfold loadTxb; split <;> rfl
@[simp] theorem loadTxb_arg (s : State) : (loadTxb s).arg = s.arg := by unfold loadTxb; split <;> rfl
@[simp] theorem loadTxb_argv (s : State) : (loadTxb s).argv = s.argv := by unfold loadTxb; split <;> rfl
@[simp] theorem loadTxb_upc (s : State) : (loadTxb s).upc = s.upc := by unfold loadTxb; split <;> rfl
@[simp] theorem loadTxb_att (s : State) : (loadTxb s).att = s.att := by unfold loadTxb; split <;> rfl
@[simp] theorem loadTxb_status (s : State) : (loadTxb s).status = s.status := by unfold loadTxb; split <;> rfl
@[simp] theorem loadTxb_rxb (s : State) : (loadTxb s).rxb = s.rxb := by unfold loadTxb; split <;> rfl
@[simp] theorem loadTxb_txb (s : State) : (loadTxb s).txb = if s.inPoll then s.txb else encodeOf s.status := by unfold loadTxb; split <;> rfl
@[simp] theorem loadTxb_raw (s : State) : (loadTxb s).raw = s.raw := by unfold loadTxb; split <;> rfl
@[simp] theorem loadTxb_norm (s : State) : (loadTxb s).norm = s.norm := by unfold loadTxb; split <;> rfl
@[simp] theorem loadTxb_dir (s : State) : (loadTxb s).dir = s.dir := by unfold loadTxb; split <;> rfl
@[simp] theorem loadTxb_applied (s : State) : (loadTxb s).applied = s.applied := by unfold loadTxb; split <;> rfl
@[simp] theorem loadTxb_hubOpen (s : State) : (loadTxb s).hubOpen = s.hubOpen := by unfold loadTxb; split <;> rfl
@[simp] theorem loadTxb_regOpen (s : State) : (loadTxb s).regOpen = s.regOpen := by unfold loadTxb; split <;> rfl
@[simp] theorem loadTxb_res (s : State) : (loadTxb s).res = s.res := by unfold loadTxb; split <;> rfl
@[simp] theorem loadTxb_pos (s : State) : (loadTxb s).pos = s.pos := by unfold loadTxb; split <;> rfl
@[simp] theorem loadTxb_port (s : State) : (loadTxb s).port = s.port := by unfold loadTxb; split <;> rfl
@[simp] theorem loadTxb_answers (s : State) : (loadTxb s).answers = s.answers := by unfold loadTxb; split <;> rfl
@[simp] theorem loadTxb_events (s : State) : (loadTxb s).events = s.events := by unfold loadTxb; split <;> rfl
@[simp] theorem loadTxb_cfg (s : State) : (loadTxb s).cfg = s.cfg := by unfold loadTxb; split <;> rfl

/-! ### `drawHub` -/

@[simp] theorem drawHub_ph (s : State) : ((drawHub s).2).ph = s.ph := by unfold drawHub; split <;> rfl
@[simp] theorem drawHub_cmd (s : State) : ((drawHub s).2).cmd = s.cmd := by unfold drawHub; split <;> rfl
@[simp] theorem drawHub_arg (s : State) : ((drawHub s).2).arg = s.arg := by unfold drawHub; split <;> rfl
@[simp] theorem drawHub_argv (s : State) : ((drawHub s).2).argv = s.argv := by unfold drawHub; split <;> rfl
@[simp] theorem drawHub_upc (s : State) : ((drawHub s).2).upc = s.upc := by unfold drawHub; split <;> rfl
@[simp] theorem drawHub_att (s : State) : ((drawHub s).2).att = s.att := by unfold drawHub; split <;> rfl
@[simp] theorem drawHub_status (s : State) : ((drawHub s).2).status = s.status := by unfold drawHub; split <;> rfl
@[simp] theorem drawHub_rxb (s : State) : ((drawHub s).2).rxb = s.rxb := by unfold drawHub; split <;> rfl
@[simp] theorem drawHub_txb (s : State) : ((drawHub s).2).txb = s.txb := by unfold drawHub; split <;> rfl
@[simp] theorem drawHub_raw (s : State) : ((drawHub s).2).raw = s.raw := by unfold drawHub; split <;> rfl
@[simp] theorem drawHub_norm (s : State) : ((drawHub s).2).norm = s.norm := by unfold drawHub; split <;> rfl
@[simp] theorem drawHub_dir (s : State) : ((drawHub s).2).dir = s.dir := by unfold drawHub; split <;> rfl
@[simp] theorem drawHub_applied (s : State) : ((drawHub s).2).applied = s.applied := by unfold drawHub; split <;> rfl
@[simp] theorem drawHub_hubOpen (s : State) : ((drawHub s).2).hubOpen = s.hubOpen := by unfold drawHub; split <;> rfl
@[simp] theorem drawHub_regOpen (s : State) : ((drawHub s).2).regOpen = s.regOpen := by unfold drawHub; split <;> rfl
@[simp] theorem drawHub_res (s : State) : ((drawHub s).2).res = s.res := by unfold drawHub; split <;> rfl
@[simp] theorem drawHub_pos (s : State) : ((drawHub s).2).pos = s.pos := by unfold drawHub; split <;> rfl
@[simp] theorem drawHub_port (s : State) : ((drawHub s).2).port = s.port := by unfold drawHub; split <;> rfl
@[simp] theorem drawHub_events (s : State) : ((drawHub s).2).events = s.events := by unfold drawHub; split <;> rfl
@[simp] theorem drawHub_cfg (s : State) : ((drawHub s).2).cfg = s.cfg := by unfold drawHub; split <;> rfl

/-! ### `drawGauge` -/

@[simp] theorem drawGauge_ph (s : State) : ((drawGauge s).2).ph = s.ph := by unfold drawGauge; split <;> rfl
@[simp] theorem drawGauge_cmd (s : State) : ((drawGauge s).2).cmd = s.cmd := by unfold drawGauge; split <;> rfl
@[simp] theorem drawGauge_arg (s : State) : ((drawGauge s).2).arg = s.arg := by unfold drawGauge; split <;> rfl
@[simp] theorem drawGauge_argv (s : State) : ((drawGauge s).2).argv = s.argv := by unfold drawGauge; split <;> rfl
@[simp] theorem drawGauge_upc (s : State) : ((drawGauge s).2).upc = s.upc := by unfold drawGauge; split <;> rfl
@[simp] theorem drawGauge_att (s : State) : ((drawGauge s).2).att = s.att := by unfold drawGauge; split <;> rfl
@[simp] theorem drawGauge_status (s : State) : ((drawGauge s).2).status = s.status := by unfold drawGauge; split <;> rfl
@[simp] theorem drawGauge_rxb (s : State) : ((drawGauge s).2).rxb = s.rxb := by unfold drawGauge; split <;> rfl
@[simp] theorem drawGauge_txb (s : State) : ((drawGauge s).2).txb = s.txb := by unfold drawGauge; split <;> rfl
@[simp] theorem drawGauge_raw (s : State) : ((drawGauge s).2).raw = s.raw := by unfold drawGauge; split <;> rfl
@[simp] theorem drawGauge_norm (s : State) : ((drawGauge s).2).norm = s.norm := by unfold drawGauge; split <;> rfl
@[simp] theorem drawGauge_dir (s : State) : ((drawGauge s).2).dir = s.dir := by unfold drawGauge; split <;> rfl
@[simp] theorem drawGauge_applied (s : State) : ((drawGauge s).2).applied = s.applied := by unfold drawGauge; split <;> rfl
@[simp] theorem drawGauge_hubOpen (s : State) : ((drawGauge s).2).hubOpen = s.hubOpen := by unfold drawGauge; split <;> rfl
@[simp] theorem drawGauge_regOpen (s : State) : ((drawGauge s).2).regOpen = s.regOpen := by unfold drawGauge; split <;> rfl
@[simp] theorem drawGauge_res (s : State) : ((drawGauge s).2).res = s.res := by unfold drawGauge; split <;> rfl
@[simp] theorem drawGauge_pos (s : State) : ((drawGauge s).2).pos = s.pos := by unfold drawGauge; split <;> rfl
@[simp] theorem drawGauge_port (s : State) : ((drawGauge s).2).port = s.port := by unfold drawGauge; split <;> rfl
@[simp] theorem drawGauge_events (s : State) : ((drawGauge s).2).events = s.events := by unfold drawGauge; split <;> rfl
@[simp] theorem drawGauge_cfg (s : State) : ((drawGauge s).2).cfg = s.cfg := by unfold drawGauge; split <;> rfl

/-! ### `drawMixer` -/

@[simp] theorem drawMixer_ph (s : State) : ((drawMixer s).2).ph = s.ph := by unfold drawMixer; split <;> rfl
@[simp] theorem drawMixer_cmd (s : State) : ((drawMixer s).2).cmd = s.cmd := by unfold drawMixer; split <;> rfl
@[simp] theorem drawMixer_arg (s : State) : ((drawMixer s).2).arg = s.arg := by unfold drawMixer; split <;> rfl
@[simp] theorem drawMixer_argv (s : State) : ((drawMixer s).2).argv = s.argv := by unfold drawMixer; split <;> rfl
@[simp] theorem drawMixer_upc (s : State) : ((drawMixer s).2).upc = s.upc := by unfold drawMixer; split <;> rfl
@[simp] theorem drawMixer_att (s : State) : ((drawMixer s).2).att = s.att := by unfold drawMixer; split <;> rfl
@[simp] theorem drawMixer_status (s : State) : ((drawMixer s).2).status = s.status := by unfold drawMixer; split <;> rfl
@[simp] theorem drawMixer_rxb (s : State) : ((drawMixer s).2).rxb = s.rxb := by unfold drawMixer; split <;> rfl
@[simp] theorem drawMixer_txb (s : State) : ((drawMixer s).2).txb = s.txb := by unfold drawMixer; split <;> rfl
@[simp] theorem drawMixer_raw (s : State) : ((drawMixer s).2).raw = s.raw := by unfold drawMixer; split <;> rfl
@[simp] theorem drawMixer_norm (s : State) : ((drawMixer s).2).norm = s.norm := by unfold drawMixer; split <;> rfl
@[simp] theorem drawMixer_dir (s : State) : ((drawMixer s).2).dir = s.dir := by unfold drawMixer; split <;> rfl
@[simp] theorem drawMixer_applied (s : State) : ((drawMixer s).2).applied = s.applied := by unfold drawMixer; split <;> rfl
@[simp] theorem drawMixer_hubOpen (s : State) : ((drawMixer s).2).hubOpen = s.hubOpen := by unfold drawMixer; split <;> rfl
@[simp] theorem drawMixer_regOpen (s : State) : ((drawMixer s).2).regOpen = s.regOpen := by unfold drawMixer; split <;> rfl
@[simp] theorem drawMixer_res (s : State) : ((drawMixer s).2).res = s.res := by unfold drawMixer; split <;> rfl
@[simp] theorem drawMixer_pos (s : State) : ((drawMixer s).2).pos = s.pos := by unfold drawMixer; split <;> rfl
@[simp] theorem drawMixer_port (s : State) : ((drawMixer s).2).port = s.port := by unfold drawMixer; split <;> rfl
@[simp] theorem drawMixer_events (s : State) : ((drawMixer s).2).events = s.events := by unfold drawMixer; split <;> rfl
@[simp] theorem drawMixer_cfg (s : State) : ((drawMixer s).2).cfg = s.cfg := by unfold drawMixer; split <;> rfl

/-! ### `drawProbe` -/

@[simp] theorem drawProbe_ph (s : State) : ((drawProbe s).2).ph = s.ph := by unfold drawProbe; split <;> rfl
@[simp] theorem drawProbe_cmd (s : State) : ((drawProbe s).2).cmd = s.cmd := by unfold drawProbe; split <;> rfl
@[simp] theorem drawProbe_arg (s : State) : ((drawProbe s).2).arg = s.arg := by unfold drawProbe; split <;> rfl
@[simp] theorem drawProbe_argv (s : State) : ((drawProbe s).2).argv = s.argv := by unfold drawProbe; split <;> rfl
@[simp] theorem drawProbe_upc (s : State) : ((drawProbe s).2).upc = s.upc := by unfold drawProbe; split <;> rfl
@[simp] theorem drawProbe_att (s : State) : ((drawProbe s).2).att = s.att := by unfold drawProbe; split <;> rfl
@[simp] theorem drawProbe_status (s : State) : ((drawProbe s).2).status = s.status := by unfold drawProbe; split <;> rfl
@[simp] theorem drawProbe_rxb (s : State) : ((drawProbe s).2).rxb = s.rxb := by unfold drawProbe; split <;> rfl
@[simp] theorem drawProbe_txb (s : State) : ((drawProbe s).2).txb = s.txb := by unfold drawProbe; split <;> rfl
@[simp] theorem drawProbe_raw (s : State) : ((drawProbe s).2).raw = s.raw := by unfold drawProbe; split <;> rfl
@[simp] theorem drawProbe_norm (s : State) : ((drawProbe s).2).norm = s.norm := by unfold drawProbe; split <;> rfl
@[simp] theorem drawProbe_dir (s : State) : ((drawProbe s).2).dir = s.dir := by unfold drawProbe; split <;> rfl
@[simp] theorem drawProbe_applied (s : State) : ((drawProbe s).2).applied = s.applied := by unfold drawProbe; split <;> rfl
@[simp] theorem drawProbe_hubOpen (s : State) : ((drawProbe s).2).hubOpen = s.hubOpen := by unfold drawProbe; split <;> rfl
@[simp] theorem drawProbe_regOpen (s : State) : ((drawProbe s).2).regOpen = s.regOpen := by unfold drawProbe; split <;> rfl
@[simp] theorem drawProbe_res (s : State) : ((drawProbe s).2).res = s.res := by unfold drawProbe; split <;> rfl
@[simp] theorem drawProbe_pos (s : State) : ((drawProbe s).2).pos = s.pos := by unfold drawProbe; split <;> rfl
@[simp] theorem drawProbe_port (s : State) : ((drawProbe s).2).port = s.port := by unfold drawProbe; split <;> rfl
@[simp] theorem drawProbe_events (s : State) : ((drawProbe s).2).events = s.events := by unfold drawProbe; split <;> rfl
@[simp] theorem drawProbe_cfg (s : State) : ((drawProbe s).2).cfg = s.cfg := by unfold drawProbe; split <;> rfl

/-! ### `drawFetch` -/

@[simp] theorem drawFetch_ph (s : State) : ((drawFetch s).2).ph = s.ph := by unfold drawFetch; split <;> rfl
@[simp] theorem drawFetch_cmd (s : State) : ((drawFetch s).2).cmd = s.cmd := by unfold drawFetch; split <;> rfl
@[simp] theorem drawFetch_arg (s : State) : ((drawFetch s).2).arg = s.arg := by unfold drawFetch; split <;> rfl
@[simp] theorem drawFetch_argv (s : State) : ((drawFetch s).2).argv = s.argv := by unfold drawFetch; split <;> rfl
@[simp] theorem drawFetch_upc (s : State) : ((drawFetch s).2).upc = s.upc := by unfold drawFetch; split <;> rfl
@[simp] theorem drawFetch_att (s : State) : ((drawFetch s).2).att = s.att := by unfold drawFetch; split <;> rfl
@[simp] theorem drawFetch_status (s : State) : ((drawFetch s).2).status = s.status := by unfold drawFetch; split <;> rfl
@[simp] theorem drawFetch_rxb (s : State) : ((drawFetch s).2).rxb = s.rxb := by unfold drawFetch; split <;> rfl
@[simp] theorem drawFetch_txb (s : State) : ((drawFetch s).2).txb = s.txb := by unfold drawFetch; split <;> rfl
@[simp] theorem drawFetch_raw (s : State) : ((drawFetch s).2).raw = s.raw := by unfold drawFetch; split <;> rfl
@[simp] theorem drawFetch_norm (s : State) : ((drawFetch s).2).norm = s.norm := by unfold drawFetch; split <;> rfl
@[simp] theorem drawFetch_dir (s : State) : ((drawFetch s).2).dir = s.dir := by unfold drawFetch; split <;> rfl
@[simp] theorem drawFetch_applied (s : State) : ((drawFetch s).2).applied = s.applied := by unfold drawFetch; split <;> rfl
@[simp] theorem drawFetch_hubOpen (s : State) : ((drawFetch s).2).hubOpen = s.hubOpen := by unfold drawFetch; split <;> rfl
@[simp] theorem drawFetch_regOpen (s : State) : ((drawFetch s).2).regOpen = s.regOpen := by unfold drawFetch; split <;> rfl
@[simp] theorem drawFetch_res (s : State) : ((drawFetch s).2).res = s.res := by unfold drawFetch; split <;> rfl
@[simp] theorem drawFetch_pos (s : State) : ((drawFetch s).2).pos = s.pos := by unfold drawFetch; split <;> rfl
@[simp] theorem drawFetch_port (s : State) : ((drawFetch s).2).port = s.port := by unfold drawFetch; split <;> rfl
@[simp] theorem drawFetch_events (s : State) : ((drawFetch s).2).events = s.events := by unfold drawFetch; split <;> rfl
@[simp] theorem drawFetch_cfg (s : State) : ((drawFetch s).2).cfg = s.cfg := by unfold drawFetch; split <;> rfl

/-! ### Handles -/

@[simp] theorem State.openBus_isOpen (s : State) (b : Bus) : (s.openBus b).isOpen b = true := by cases b <;> rfl
@[simp] theorem State.openBus_hub_hubOpen (s : State) : (s.openBus .hub).hubOpen = true := rfl
@[simp] theorem State.openBus_hub_regOpen (s : State) : (s.openBus .hub).regOpen = s.regOpen := rfl
@[simp] theorem State.openBus_reg_hubOpen (s : State) : (s.openBus .reg).hubOpen = s.hubOpen := rfl
@[simp] theorem State.openBus_reg_regOpen (s : State) : (s.openBus .reg).regOpen = true := rfl
@[simp] theorem State.isOpen_hub (s : State) : s.isOpen .hub = s.hubOpen := rfl
@[simp] theorem State.isOpen_reg (s : State) : s.isOpen .reg = s.regOpen := rfl

/-! ### Result records -/

/-! ### Addresses of the register bus (20_memory R61) -/

theorem busAddress_lt (c : Config) (a : Nat) : busAddress c a < 2 ^ c.addrW := Nat.mod_lt _ (Nat.two_pow_pos _)
theorem busAddress_of_lt {c : Config} {a : Nat} (h : a < 2 ^ c.addrW) : busAddress c a = a := Nat.mod_eq_of_lt h
theorem latchArg_lt (c : Config) (a : Nat) : latchArg c a < 2 ^ c.addrW := busAddress_lt c a
theorem latchArg_of_lt {c : Config} {a : Nat} (h : a < 2 ^ c.addrW) : latchArg c a = a := busAddress_of_lt h
theorem gaugeAddress_lt (c : Config) : gaugeAddress c < 2 ^ c.addrW := busAddress_lt c _

/-- In a well-formed configuration the gauge is read at `GAUGE_ADDR` unchanged. -/
theorem gaugeAddress_of_wf {c : Config} (h : c.wf = true) : gaugeAddress c = c.gaugeAddr := by
  simp only [Config.wf, Config.gaugeAddrOk, Bool.and_eq_true, decide_eq_true_eq] at h
  exact busAddress_of_lt h.2

@[simp] theorem Res.ok_report (r : Res) (p : Payload) : (r.ok p).report = .ok p := rfl
@[simp] theorem Res.ok_valid (r : Res) (p : Payload) : (r.ok p).valid = true := rfl
@[simp] theorem Res.ok_err (r : Res) (p : Payload) : (r.ok p).err = 0#3 := rfl
@[simp] theorem Res.fail_report (r : Res) (f : Failure) : (r.fail f).report = .failed f := by cases f <;> rfl
@[simp] theorem Res.fail_valid (r : Res) (f : Failure) : (r.fail f).valid = true := by cases f <;> rfl
@[simp] theorem Res.fail_err (r : Res) (f : Failure) : (r.fail f).err = failureCode f := by cases f <;> rfl
@[simp] theorem Res.fail_payload (r : Res) (f : Failure) : (r.fail f).payload = r.payload := by cases f <;> rfl
theorem failureCode_ne_zero (f : Failure) : failureCode f ≠ 0#3 := by
  cases f <;> simp [failureCode]

end Sys2Proof.Machine
end

