-- ==== Sys2Proof/Laws/Exec.lean ====
section
/-! SUPPORT. What a command, an attempt and a poll step can do, said once each; later proofs cite these. -/

namespace Sys2Proof.Machine

/-- The list of micro-operations of each command (30_encoding R112). -/
def microList (i : Instr) : List (State → State) :=
  match i with
  | .batteryState      => [grd .state, classify, finDirection]
  | .batteryCapacity   => [grd .capacity, finCapacity]
  | .batteryTime       => [grd .state, classify, grdTime, finTime]
  | .systemState       => readList
  | .systemOff         => mutatingList mutPowerOff
  | .backlightState    => readList
  | .backlight1        => mutatingList (mutLevel 1#4)
  | .backlight2        => mutatingList (mutLevel 2#4)
  | .backlight3        => mutatingList (mutLevel 3#4)
  | .backlight4        => mutatingList (mutLevel 4#4)
  | .backlight5        => mutatingList (mutLevel 5#4)
  | .backlight6        => mutatingList (mutLevel 6#4)
  | .backlight7        => mutatingList (mutLevel 7#4)
  | .backlight8        => mutatingList (mutLevel 8#4)
  | .backlight9        => mutatingList (mutLevel 9#4)
  | .backlight10       => mutatingList (mutLevel 10#4)
  | .backlightIncrease => mutatingList mutIncrease
  | .backlightDecrease => mutatingList mutDecrease
  | .backlightOn       => mutatingList (mutLevel 5#4)
  | .backlightOff      => mutatingList mutScreenOff
  | .lidState          => readList
  | .speakerLeft       => speakerList .left
  | .speakerRight      => speakerList .right
  | .speakerMono       => speakerList .mono

/-- Every meaning is the running of its list. -/
theorem exec_eq_runCommand (i : Instr) (s : State) : exec i s = runCommand i (microList i) s := by
  cases i <;> rfl

theorem microList_length (i : Instr) : (microList i).length = finIndex i + 1 := by cases i <;> rfl

/-- Everything a command's step can do when it answers a next state. -/
theorem exec_next {i : Instr} {s t : State} (h : exec i s = .next t) :
    (s.ph = .idle ∧ ∃ p, s.port = some p ∧ t = acceptAs i p s) ∨ (s.ph = .idle ∧ s.port = none ∧ t = s) ∨
    (s.ph = .run ∧ ∃ m, (microList i)[s.upc]? = some m ∧ t = m s) ∨ (s.ph = .done ∧ t = s) := by
  rw [exec_eq_runCommand] at h
  unfold runCommand at h
  split at h
  · rename_i hp
    split at h
    · rename_i p hport; cases h; exact .inl ⟨hp, p, hport, rfl⟩
    · rename_i hport; cases h; exact .inr (.inl ⟨hp, hport, rfl⟩)
  · rename_i hp
    split at h
    · rename_i m hm; cases h; exact .inr (.inr (.inl ⟨hp, m, hm, rfl⟩))
    · cases h
  · rename_i hp; cases h; exact .inr (.inr (.inr ⟨hp, rfl⟩))

theorem exec_run {i : Instr} {s : State} {m : State → State} (hp : s.ph = .run) (hm : (microList i)[s.upc]? = some m) :
    exec i s = .next (m s) := by
  rw [exec_eq_runCommand]; simp [runCommand, hp, hm]

theorem exec_idle {i : Instr} {s : State} {p : Presented} (hp : s.ph = .idle) (hport : s.port = some p) :
    exec i s = .next (acceptAs i p s) := by
  rw [exec_eq_runCommand]; simp [runCommand, hp, hport]

/-- Everything an acceptance writes, whether the command passes the check or not (30_encoding R105, R108 (b)). -/
theorem acceptAs_eq (i : Instr) (p : Presented) (s : State) :
    acceptAs i p s =
      { s with
        cmd := encode i, arg := latchArg s.cfg p.arg, argv := p.argv, upc := 0, pos := .start, port := none
        ph := if needsOperand i && !p.argv then .done else .run
        res := if needsOperand i && !p.argv then { s.res with valid := true, err := 4#3 } else s.res
        events :=
          if needsOperand i && !p.argv then s.events ++ [.result { s.res with valid := true, err := 4#3 }] else s.events } := by
  unfold acceptAs; split <;> rfl

/-- A word decodes to a command exactly when it is the command's word. -/
theorem decodeCommand_encode (i : Instr) : decodeCommand (encode i) = some i := by cases i <;> rfl

theorem encode_of_decodeCommand {w : Byte} {i : Instr} (h : decodeCommand w = some i) : encode i = w := by
  revert w; cases i <;> decide

theorem step_run {s : State} {i : Instr} (hp : s.ph = .run) (hd : decodeCommand s.cmd = some i) :
    step s = exec i s := by
  simp [step, currentWord, hp, hd]

theorem step_idle {s : State} {p : Presented} {i : Instr} (hp : s.ph = .idle) (hport : s.port = some p)
    (hd : decodeCommand p.cmd = some i) : step s = exec i s := by
  simp [step, currentWord, hp, hport, hd]

theorem step_quiet {s : State} (hp : s.ph = .done ∨ (s.ph = .idle ∧ s.port = none)) : step s = .next s := by
  rcases hp with hp | ⟨hp, hport⟩
  · simp [step, currentWord, hp, quietStep]
  · simp [step, currentWord, hp, hport, quietStep]

/-- Everything a step can do when it answers a next state: nothing, an acceptance, the rejection of a reserved word, or a
micro-operation of the running command. -/
theorem step_next {s t : State} (h : step s = .next t) :
    (t = s ∧ (s.ph = .done ∨ (s.ph = .idle ∧ s.port = none))) ∨
    (s.ph = .idle ∧ ∃ p i, s.port = some p ∧ decodeCommand p.cmd = some i ∧ t = acceptAs i p s) ∨
    (s.ph = .idle ∧ ∃ p, s.port = some p ∧ decodeCommand p.cmd = none ∧ t = acceptReserved p s) ∨
    (s.ph = .run ∧ ∃ i m, decodeCommand s.cmd = some i ∧ (microList i)[s.upc]? = some m ∧ t = m s) := by
  cases hp : s.ph with
  | done =>
    rw [step_quiet (.inl hp)] at h; cases h; exact .inl ⟨rfl, .inl rfl⟩
  | idle =>
    cases hport : s.port with
    | none => rw [step_quiet (.inr ⟨hp, hport⟩)] at h; cases h; exact .inl ⟨rfl, .inr ⟨rfl, rfl⟩⟩
    | some p =>
      cases hd : decodeCommand p.cmd with
      | some i =>
        rw [step_idle hp hport hd, exec_idle hp hport] at h; cases h
        exact .inr (.inl ⟨rfl, p, i, rfl, hd, rfl⟩)
      | none =>
        simp [step, currentWord, hp, hport, hd, reservedStep] at h
        exact .inr (.inr (.inl ⟨rfl, p, rfl, hd, h.symm⟩))
  | run =>
    cases hd : decodeCommand s.cmd with
    | none => simp [step, currentWord, hp, hd, reservedStep] at h
    | some i =>
      rw [step_run hp hd] at h
      rcases exec_next h with ⟨h', _⟩ | ⟨h', _⟩ | ⟨_, m, hm, rfl⟩ | ⟨h', _⟩
      · simp [hp] at h'
      · simp [hp] at h'
      · exact .inr (.inr (.inr ⟨rfl, i, m, rfl, hm, rfl⟩))
      · simp [hp] at h'

/-- A step on a bus either opens it or makes its transaction. -/
theorem onBus_cases (b : Bus) (f : State → State) (s : State) :
    (s.isOpen b = true ∧ onBus b f s = f s) ∨ (s.isOpen b = false ∧ onBus b f s = s.openBus b) := by
  unfold onBus; cases h : s.isOpen b <;> simp

/-- An attempt opens its bus, or is accepted, or is rejected with budget left, or ends in BusFailure. -/
theorem attempt_cases {α : Type} (b : Bus) (op : State → Option α × State) (accept : α → State → State) (s : State) :
    (s.isOpen b = false ∧ attempt b op accept s = s.openBus b) ∨
    (s.isOpen b = true ∧ ∃ r, (op { s with att := s.att + 1 }).1 = r ∧
      ((∃ v, r = some v ∧ attempt b op accept s = (accept v (op { s with att := s.att + 1 }).2).advance) ∨
       (r = none ∧ (op { s with att := s.att + 1 }).2.att < (op { s with att := s.att + 1 }).2.cfg.maxAttempts ∧
         attempt b op accept s = (op { s with att := s.att + 1 }).2.goTo .delayOwed) ∨
       (r = none ∧ (op { s with att := s.att + 1 }).2.cfg.maxAttempts ≤ (op { s with att := s.att + 1 }).2.att ∧
         attempt b op accept s =
           raise (.busFailure (op { s with att := s.att + 1 }).2.cfg.maxAttempts) (op { s with att := s.att + 1 }).2))) := by
  unfold attempt
  rcases onBus_cases b _ s with ⟨ho, he⟩ | ⟨ho, he⟩
  · refine .inr ⟨ho, _, rfl, ?_⟩
    rw [he]
    rcases hop : op { s with att := s.att + 1 } with ⟨r, t⟩
    cases r with
    | some v => exact .inl ⟨v, rfl, by simp⟩
    | none =>
      by_cases hl : t.att < t.cfg.maxAttempts
      · exact .inr (.inl ⟨rfl, hl, by simp [hl]⟩)
      · exact .inr (.inr ⟨rfl, Nat.le_of_not_lt hl, by simp [hl]⟩)
  · exact .inl ⟨ho, he⟩

/-- A poll step: its delay, an attempt, the first attempt, or BusFailure when there is no budget. -/
theorem pollStep_cases {α : Type} (b : Bus) (op : State → Option α × State) (accept : α → State → State) (s : State) :
    (s.pos = .delayOwed ∧ s.att < s.cfg.maxAttempts ∧ pollStep b op accept s = (s.emit .delay).goTo .delayTaken) ∨
    (s.pos = .delayOwed ∧ s.cfg.maxAttempts ≤ s.att ∧ pollStep b op accept s = raise (.busFailure s.cfg.maxAttempts) s) ∨
    (s.pos = .delayTaken ∧ pollStep b op accept s = attempt b op accept s) ∨
    (s.inPoll = false ∧ 0 < s.cfg.maxAttempts ∧ pollStep b op accept s = attempt b op accept { s with att := 0 }) ∨
    (s.inPoll = false ∧ s.cfg.maxAttempts = 0 ∧
      pollStep b op accept s = raise (.busFailure s.cfg.maxAttempts) { s with att := 0 }) := by
  unfold pollStep State.inPoll
  cases hp : s.pos with
  | delayOwed =>
    by_cases hl : s.att < s.cfg.maxAttempts
    · exact .inl ⟨rfl, hl, by simp [hl]⟩
    · exact .inr (.inl ⟨rfl, Nat.le_of_not_lt hl, by simp [hl]⟩)
  | delayTaken => exact .inr (.inr (.inl ⟨rfl, rfl⟩))
  | start =>
    by_cases hl : 0 < s.cfg.maxAttempts
    · exact .inr (.inr (.inr (.inl ⟨rfl, hl, by simp [hl]⟩)))
    · exact .inr (.inr (.inr (.inr ⟨rfl, by omega, by simp [hl]⟩)))
  | raiseOwed =>
    by_cases hl : 0 < s.cfg.maxAttempts
    · exact .inr (.inr (.inr (.inl ⟨rfl, hl, by simp [hl]⟩)))
    · exact .inr (.inr (.inr (.inr ⟨rfl, by omega, by simp [hl]⟩)))
  | mixerSetOwed =>
    by_cases hl : 0 < s.cfg.maxAttempts
    · exact .inr (.inr (.inr (.inl ⟨rfl, hl, by simp [hl]⟩)))
    · exact .inr (.inr (.inr (.inr ⟨rfl, by omega, by simp [hl]⟩)))
  | directiveHeld d =>
    by_cases hl : 0 < s.cfg.maxAttempts
    · exact .inr (.inr (.inr (.inl ⟨rfl, hl, by simp [hl]⟩)))
    · exact .inr (.inr (.inr (.inr ⟨rfl, by omega, by simp [hl]⟩)))

/-! ### Which micro-operation stands where (30_encoding R112) -/

theorem microList_hget {i : Instr} {k : Nat} (h : hgetAt i k = true) : (microList i)[k]? = some hget := by
  simp only [hgetAt, Bool.or_eq_true, Bool.and_eq_true, decide_eq_true_eq] at h
  rcases h with ⟨hi, rfl⟩ | ⟨hi, rfl | rfl⟩ <;> cases i <;>
    first | rfl | simp [isHub, isReadOnly, isMutating] at hi

theorem microList_hset {i : Instr} {k : Nat} (h : hsetAt i k = true) : (microList i)[k]? = some hset := by
  simp only [hsetAt, Bool.and_eq_true, decide_eq_true_eq] at h
  obtain ⟨hi, rfl⟩ := h
  cases i <;> first | rfl | simp [isMutating] at hi

theorem microList_grd {i : Instr} {s : State} {r : GaugeReg} (h : grdAt i s.upc s.dir = some r) :
    ∃ m, (microList i)[s.upc]? = some m ∧ m s = grd r s := by
  cases i <;> simp only [grdAt, reduceCtorEq] at h
  · split at h <;> simp_all [microList]
  · split at h <;> simp_all [microList]
  · split at h
    · simp_all [microList]
    · split at h <;> simp_all [microList, grdTime]

theorem microList_mut {i : Instr} (h : isMutating i = true) :
    ∃ m, (microList i)[1]? = some m ∧
      ∀ s, m s = (match mutation i s.status with | some h => mutTo h s | none => mutSkip s) := by
  cases i <;> first | (simp [isMutating] at h; done) | refine ⟨_, rfl, fun s => ?_⟩
  all_goals first | rfl | skip
  · simp only [mutIncrease, mutation, brightMax]; by_cases hb : s.status.brightness.toNat < 10 <;> simp [hb]
  · simp only [mutDecrease, mutation, brightMin]; by_cases hb : 1 < s.status.brightness.toNat <;> simp [hb]

theorem microList_speaker {i : Instr} {m : Tag} (h : modeOf i = some m) : microList i = speakerList m := by
  cases i <;> simp [modeOf] at h <;> subst h <;> rfl

theorem needsOperand_iff_mode (i : Instr) : needsOperand i = true ↔ ∃ m, modeOf i = some m := by
  cases i <;> simp [needsOperand, modeOf]

theorem microList_fin (i : Instr) :
    (microList i)[finIndex i]? = some (fun s => finish (payloadOf i s) s) := by
  cases i <;> rfl

end Sys2Proof.Machine
end

