-- ==== Sys2Proof/Laws/Poll.lean ====
section
/-! SUPPORT. An attempt of a poll in one equation each: what it takes from the environment and what it writes. -/

namespace Sys2Proof.Machine

/-- A poll step whose attempt is due, on an open bus. -/
theorem pollStep_due {α : Type} (b : Bus) (op : State → Option α × State) (accept : α → State → State) (s : State)
    (h : attemptDue s = true) (ho : s.isOpen b = true) :
    pollStep b op accept s =
      (match op { s with att := attemptNumber s } with
       | (some v, t) => (accept v t).advance
       | (none, t)   =>
         if t.att < t.cfg.maxAttempts then t.goTo .delayOwed else raise (.busFailure t.cfg.maxAttempts) t) := by
  have ha : ∀ u : State, u.isOpen b = true → attempt b op accept u =
      (match op { u with att := u.att + 1 } with
       | (some v, t) => (accept v t).advance
       | (none, t)   =>
         if t.att < t.cfg.maxAttempts then t.goTo .delayOwed else raise (.busFailure t.cfg.maxAttempts) t) := by
    intro u hu; unfold attempt onBus; exact if_pos hu
  have h0 : ({ s with att := 0 } : State).isOpen b = true := by cases b <;> exact ho
  rcases pollStep_cases b op accept s with ⟨hp, -, -⟩ | ⟨hp, -, -⟩ | ⟨hp, he⟩ | ⟨hp, -, he⟩ | ⟨hp, hm, -⟩
  · simp [attemptDue, hp] at h
  · simp [attemptDue, hp] at h
  · rw [he, ha s ho]; simp [attemptNumber, State.inPoll, hp]
  · rw [he, ha _ h0]; simp [attemptNumber, hp]
  · exfalso; cases hq : s.pos <;> simp [attemptDue, State.inPoll, hq, hm] at h hp

theorem drawHub_eq (s : State) : (drawHub s).2 = { s with answers := (drawHub s).2.answers } := by
  unfold drawHub; split <;> rfl
theorem drawGauge_eq (s : State) : (drawGauge s).2 = { s with answers := (drawGauge s).2.answers } := by
  unfold drawGauge; split <;> rfl
theorem drawMixer_eq (s : State) : (drawMixer s).2 = { s with answers := (drawMixer s).2.answers } := by
  unfold drawMixer; split <;> rfl
theorem drawProbe_eq (s : State) : (drawProbe s).2 = { s with answers := (drawProbe s).2.answers } := by
  unfold drawProbe; split <;> rfl
theorem drawFetch_eq (s : State) : (drawFetch s).2 = { s with answers := (drawFetch s).2.answers } := by
  unfold drawFetch; split <;> rfl

/-- A draw depends on the answers alone. -/
theorem drawHub_congr {s t : State} (h : s.answers = t.answers) :
    (drawHub s).1 = (drawHub t).1 ∧ (drawHub s).2.answers = (drawHub t).2.answers := by
  unfold drawHub; rw [h]; cases t.answers.hub <;> exact ⟨rfl, rfl⟩
theorem drawGauge_congr {s t : State} (h : s.answers = t.answers) :
    (drawGauge s).1 = (drawGauge t).1 ∧ (drawGauge s).2.answers = (drawGauge t).2.answers := by
  unfold drawGauge; rw [h]; cases t.answers.gauge <;> exact ⟨rfl, rfl⟩
theorem drawMixer_congr {s t : State} (h : s.answers = t.answers) :
    (drawMixer s).1 = (drawMixer t).1 ∧ (drawMixer s).2.answers = (drawMixer t).2.answers := by
  unfold drawMixer; rw [h]; cases t.answers.mixer <;> exact ⟨rfl, rfl⟩
theorem drawProbe_congr {s t : State} (h : s.answers = t.answers) :
    (drawProbe s).1 = (drawProbe t).1 ∧ (drawProbe s).2.answers = (drawProbe t).2.answers := by
  unfold drawProbe; rw [h]; cases t.answers.probe <;> exact ⟨rfl, rfl⟩
theorem drawFetch_congr {s t : State} (h : s.answers = t.answers) :
    (drawFetch s).1 = (drawFetch t).1 ∧ (drawFetch s).2.answers = (drawFetch t).2.answers := by
  unfold drawFetch; rw [h]; cases t.answers.fetch <;> exact ⟨rfl, rfl⟩

/-- A draw leaves the other queues alone. -/
theorem drawHub_queues (s : State) :
    (drawHub s).2.answers.gauge = s.answers.gauge ∧ (drawHub s).2.answers.mixer = s.answers.mixer ∧
    (drawHub s).2.answers.probe = s.answers.probe ∧ (drawHub s).2.answers.fetch = s.answers.fetch := by
  unfold drawHub; split <;> exact ⟨rfl, rfl, rfl, rfl⟩
theorem drawGauge_queues (s : State) :
    (drawGauge s).2.answers.hub = s.answers.hub ∧ (drawGauge s).2.answers.mixer = s.answers.mixer ∧
    (drawGauge s).2.answers.probe = s.answers.probe ∧ (drawGauge s).2.answers.fetch = s.answers.fetch := by
  unfold drawGauge; split <;> exact ⟨rfl, rfl, rfl, rfl⟩
theorem drawMixer_queues (s : State) :
    (drawMixer s).2.answers.hub = s.answers.hub ∧ (drawMixer s).2.answers.gauge = s.answers.gauge := by
  unfold drawMixer; split <;> exact ⟨rfl, rfl⟩
theorem drawProbe_queues (s : State) :
    (drawProbe s).2.answers.hub = s.answers.hub ∧ (drawProbe s).2.answers.gauge = s.answers.gauge := by
  unfold drawProbe; split <;> exact ⟨rfl, rfl⟩
theorem drawFetch_queues (s : State) :
    (drawFetch s).2.answers.hub = s.answers.hub ∧ (drawFetch s).2.answers.gauge = s.answers.gauge := by
  unfold drawFetch; split <;> exact ⟨rfl, rfl⟩

/-- A transfer made by an attempt: its verdict, and the state with the attempt counted and the event emitted. -/
theorem hubTransfer_eq (tx : Byte) (s : State) (n : Nat) :
    hubTransfer tx { s with att := n } =
      (okHub (drawHub s).1,
        { s with
          att := n, answers := (drawHub s).2.answers, events := s.events ++ [.hubXfer tx (drawHub s).1] }) := by
  unfold hubTransfer
  rw [drawHub_eq, (drawHub_congr (show ({ s with att := n } : State).answers = s.answers from rfl)).1,
    (drawHub_congr (show ({ s with att := n } : State).answers = s.answers from rfl)).2]
  rfl

/-- A gauge read made by an attempt. -/
theorem gaugeRead_eq (r : GaugeReg) (s : State) (n : Nat) :
    gaugeRead r { s with att := n } =
      (acceptGauge s.cfg.zeroFilterAll r (drawGauge s).1,
        { s with
          att := n, answers := (drawGauge s).2.answers
          events := s.events ++ [.regRead (gaugeAddress s.cfg) (gaugeNumber s.cfg r) 2 (drawGauge s).1] }) := by
  unfold gaugeRead
  rw [drawGauge_eq, (drawGauge_congr (show ({ s with att := n } : State).answers = s.answers from rfl)).1,
    (drawGauge_congr (show ({ s with att := n } : State).answers = s.answers from rfl)).2]
  rfl

theorem loadTxb_eq (s : State) : loadTxb s = { s with txb := if s.inPoll then s.txb else encodeOf s.status } := by
  unfold loadTxb; split <;> rfl

theorem attemptDue_txb (s : State) (b : Byte) : attemptDue { s with txb := b } = attemptDue s := rfl
theorem attemptNumber_txb (s : State) (b : Byte) : attemptNumber { s with txb := b } = attemptNumber s := rfl

/-- HGET whose attempt is due, on the open bus. -/
theorem hget_due {s : State} (h : attemptDue s = true) (ho : s.hubOpen = true) :
    hget s =
      (match okHub (drawHub s).1 with
       | some b =>
         { s with
           att := attemptNumber s, rxb := b, status := decodeStatus b, upc := s.upc + 1, pos := .start
           answers := (drawHub s).2.answers, events := s.events ++ [.hubXfer s.cfg.statusReq (drawHub s).1] }
       | none => rejected s (drawHub s).2.answers (.hubXfer s.cfg.statusReq (drawHub s).1)) := by
  unfold hget
  rw [pollStep_due .hub _ _ s h ho, hubTransfer_eq]
  cases okHub (drawHub s).1 with
  | some b => rfl
  | none => simp [rejected, raise, State.goTo, Res.fail, failureCode]

/-- HSET whose attempt is due, on the open bus. -/
theorem hset_due {s : State} (h : attemptDue s = true) (ho : s.hubOpen = true) :
    hset s =
      (match okHub (drawHub s).1 with
       | some _ =>
         { s with
           att := attemptNumber s, txb := (if s.inPoll then s.txb else encodeOf s.status), upc := s.upc + 1
           pos := .start, answers := (drawHub s).2.answers
           events := s.events ++ [.hubXfer (if s.inPoll then s.txb else encodeOf s.status) (drawHub s).1] }
       | none =>
         rejected { s with txb := if s.inPoll then s.txb else encodeOf s.status } (drawHub s).2.answers
           (.hubXfer (if s.inPoll then s.txb else encodeOf s.status) (drawHub s).1)) := by
  unfold hset
  rw [loadTxb_eq]
  generalize (if s.inPoll then s.txb else encodeOf s.status) = tx
  have hc := drawHub_congr (show ({ s with txb := tx } : State).answers = s.answers from rfl)
  rw [pollStep_due .hub _ _ { s with txb := tx } h ho, hubTransfer_eq, hc.1, hc.2, attemptNumber_txb]
  cases okHub (drawHub s).1 with
  | some b => rfl
  | none => simp [rejected, attemptNumber_txb, raise, State.goTo, Res.fail, failureCode]

/-- GRD whose attempt is due, on the open bus. -/
theorem grd_due {s : State} (r : GaugeReg) (h : attemptDue s = true) (ho : s.regOpen = true) :
    grd r s =
      (match acceptGauge s.cfg.zeroFilterAll r (drawGauge s).1 with
       | some raw =>
         { s with
           att := attemptNumber s, raw := raw, upc := s.upc + 1, pos := .start, answers := (drawGauge s).2.answers
           events := s.events ++ [.regRead (gaugeAddress s.cfg) (gaugeNumber s.cfg r) 2 (drawGauge s).1] }
       | none =>
         rejected s (drawGauge s).2.answers
           (.regRead (gaugeAddress s.cfg) (gaugeNumber s.cfg r) 2 (drawGauge s).1)) := by
  unfold grd
  rw [pollStep_due .reg _ _ s h ho, gaugeRead_eq]
  cases acceptGauge s.cfg.zeroFilterAll r (drawGauge s).1 with
  | some raw => rfl
  | none => simp [rejected, raise, State.goTo, Res.fail, failureCode]

/-- The delay of a poll. -/
theorem pollStep_delay {α : Type} (b : Bus) (op : State → Option α × State) (accept : α → State → State) {s : State}
    (hp : s.pos = .delayOwed) (hl : s.att < s.cfg.maxAttempts) :
    pollStep b op accept s = { s with pos := .delayTaken, events := s.events ++ [.delay] } := by
  unfold pollStep; rw [hp]; simp only [if_pos hl]; rfl

theorem hget_delay {s : State} (hp : s.pos = .delayOwed) (hl : s.att < s.cfg.maxAttempts) :
    hget s = { s with pos := .delayTaken, events := s.events ++ [.delay] } := pollStep_delay _ _ _ hp hl

theorem hset_delay {s : State} (hp : s.pos = .delayOwed) (hl : s.att < s.cfg.maxAttempts) :
    hset s = { s with pos := .delayTaken, events := s.events ++ [.delay] } := by
  have h : loadTxb s = s := by unfold loadTxb State.inPoll; rw [hp]; rfl
  unfold hset; rw [h]; exact pollStep_delay _ _ _ hp hl

theorem grd_delay (r : GaugeReg) {s : State} (hp : s.pos = .delayOwed) (hl : s.att < s.cfg.maxAttempts) :
    grd r s = { s with pos := .delayTaken, events := s.events ++ [.delay] } := pollStep_delay _ _ _ hp hl

end Sys2Proof.Machine
end

