-- ==== Sys2Proof/Laws/Micro.lean ====
section
/-! SUPPORT. Everything each micro-operation can do, as one disjunction each, and which one runs at an index of a command's
list (30_encoding R112). -/

namespace Sys2Proof.Machine

/-- The part of a polling step that is not an attempt on an open bus: the delay, the opening of the bus, or the failure of a
poll without budget (41_poll R177). -/
def PollIdle (b : Bus) (s t : State) : Prop :=
  (s.pos = .delayOwed ∧ s.att < s.cfg.maxAttempts ∧ t = { s with pos := .delayTaken, events := s.events ++ [.delay] }) ∨
  (s.isOpen b = false ∧ attemptDue s = true ∧ t = { s with att := if s.inPoll then s.att else 0 }.openBus b) ∨
  (s.cfg.maxAttempts ≤ (if s.inPoll then s.att else 0) ∧ attemptDue s = false ∧
    t = { s with
      att := if s.inPoll then s.att else 0, pos := .start, ph := .done
      res := { s.res with valid := true, err := 1#3, attempts := s.cfg.maxAttempts }
      events := s.events ++ [.result { s.res with valid := true, err := 1#3, attempts := s.cfg.maxAttempts }] })

theorem raise_busFailure (n : Nat) (s : State) :
    raise (.busFailure n) s =
      { s with
        pos := .start, ph := .done, res := { s.res with valid := true, err := 1#3, attempts := n }
        events := s.events ++ [.result { s.res with valid := true, err := 1#3, attempts := n }] } := rfl

/-- A poll step is one of `PollIdle`, or its attempt is due on the open bus. -/
theorem pollStep_idle_or_due {α : Type} (b : Bus) (op : State → Option α × State) (accept : α → State → State) (s : State) :
    PollIdle b s (pollStep b op accept s) ∨ (attemptDue s = true ∧ s.isOpen b = true) := by
  rcases pollStep_cases b op accept s with ⟨hp, hl, he⟩ | ⟨hp, hl, he⟩ | ⟨hp, he⟩ | ⟨hp, hm, he⟩ | ⟨hp, hm, he⟩
  · exact .inl (.inl ⟨hp, hl, by rw [he]; rfl⟩)
  · refine .inl (.inr (.inr ⟨by simpa [State.inPoll, hp] using hl, by simp [attemptDue, hp], ?_⟩))
    rw [he, raise_busFailure]; simp [State.inPoll, hp]
  · cases ho : s.isOpen b with
    | true => exact .inr ⟨by simp [attemptDue, hp], rfl⟩
    | false =>
      refine .inl (.inr (.inl ⟨ho, by simp [attemptDue, hp], ?_⟩))
      rw [he, if_pos (by simp [State.inPoll, hp])]; unfold attempt onBus; rw [ho]; rfl
  · have hd : attemptDue s = true := by
      cases hq : s.pos <;> simp [State.inPoll, hq, attemptDue] at hp ⊢ <;> exact hm
    have h0 : ({ s with att := 0 } : State).isOpen b = s.isOpen b := by cases b <;> rfl
    cases ho : s.isOpen b with
    | true => exact .inr ⟨hd, rfl⟩
    | false =>
      refine .inl (.inr (.inl ⟨ho, hd, ?_⟩))
      rw [he]; unfold attempt onBus; rw [h0, ho]; simp [hp]
  · refine .inl (.inr (.inr ⟨by simp [hp, hm], ?_, ?_⟩))
    · cases hq : s.pos <;> simp [State.inPoll, hq, attemptDue] at hp ⊢ <;> exact hm
    · rw [he, raise_busFailure]; simp [hp]

/-- Everything HGET can do (41_poll R174, R177). -/
theorem hget_cases (s : State) :
    PollIdle .hub s (hget s) ∨
    (attemptDue s = true ∧ s.hubOpen = true ∧ ∃ b, okHub (drawHub s).1 = some b ∧ hget s =
      { s with
        att := attemptNumber s, rxb := b, status := decodeStatus b, upc := s.upc + 1, pos := .start
        answers := (drawHub s).2.answers, events := s.events ++ [.hubXfer s.cfg.statusReq (drawHub s).1] }) ∨
    (attemptDue s = true ∧ s.hubOpen = true ∧ okHub (drawHub s).1 = none ∧
      hget s = rejected s (drawHub s).2.answers (.hubXfer s.cfg.statusReq (drawHub s).1)) := by
  rcases pollStep_idle_or_due .hub (hubTransfer s.cfg.statusReq) takeStatus s with h | ⟨hd, ho⟩
  · exact .inl h
  · refine .inr ?_
    cases hr : okHub (drawHub s).1 with
    | some b => exact .inl ⟨hd, ho, b, rfl, by rw [hget_due hd ho, hr]⟩
    | none => exact .inr ⟨hd, ho, rfl, by rw [hget_due hd ho, hr]⟩

/-- Everything HSET can do (41_poll R175, R177). -/
theorem hset_cases (s : State) :
    ∃ tx, tx = (if s.inPoll then s.txb else encodeOf s.status) ∧
    (PollIdle .hub { s with txb := tx } (hset s) ∨
    (attemptDue s = true ∧ s.hubOpen = true ∧ (∃ b, okHub (drawHub s).1 = some b) ∧ hset s =
      { s with
        att := attemptNumber s, txb := tx, upc := s.upc + 1, pos := .start
        answers := (drawHub s).2.answers, events := s.events ++ [.hubXfer tx (drawHub s).1] }) ∨
    (attemptDue s = true ∧ s.hubOpen = true ∧ okHub (drawHub s).1 = none ∧
      hset s = rejected { s with txb := tx } (drawHub s).2.answers (.hubXfer tx (drawHub s).1))) := by
  refine ⟨_, rfl, ?_⟩
  rcases pollStep_idle_or_due .hub (hubTransfer (loadTxb s).txb) (fun _ t => t) (loadTxb s) with h | ⟨hd, ho⟩
  · exact .inl (by rw [← loadTxb_eq]; exact h)
  · rw [loadTxb_eq] at hd ho
    have hd' : attemptDue s = true := hd
    have ho' : s.hubOpen = true := ho
    refine .inr ?_
    cases hr : okHub (drawHub s).1 with
    | some b => exact .inl ⟨hd', ho', ⟨b, rfl⟩, by rw [hset_due hd' ho', hr]⟩
    | none => exact .inr ⟨hd', ho', rfl, by rw [hset_due hd' ho', hr]⟩

/-- Everything GRD can do (41_poll R176, R177). -/
theorem grd_cases (r : GaugeReg) (s : State) :
    PollIdle .reg s (grd r s) ∨
    (attemptDue s = true ∧ s.regOpen = true ∧ ∃ raw,
      acceptGauge s.cfg.zeroFilterAll r (drawGauge s).1 = some raw ∧ grd r s =
      { s with
        att := attemptNumber s, raw := raw, upc := s.upc + 1, pos := .start, answers := (drawGauge s).2.answers
        events := s.events ++ [.regRead (gaugeAddress s.cfg) (gaugeNumber s.cfg r) 2 (drawGauge s).1] }) ∨
    (attemptDue s = true ∧ s.regOpen = true ∧ acceptGauge s.cfg.zeroFilterAll r (drawGauge s).1 = none ∧
      grd r s = rejected s (drawGauge s).2.answers
        (.regRead (gaugeAddress s.cfg) (gaugeNumber s.cfg r) 2 (drawGauge s).1)) := by
  rcases pollStep_idle_or_due .reg (gaugeRead r) (fun v t => { t with raw := v }) s with h | ⟨hd, ho⟩
  · exact .inl h
  · refine .inr ?_
    cases hr : acceptGauge s.cfg.zeroFilterAll r (drawGauge s).1 with
    | some raw => exact .inl ⟨hd, ho, raw, rfl, by rw [grd_due r hd ho, hr]⟩
    | none => exact .inr ⟨hd, ho, rfl, by rw [grd_due r hd ho, hr]⟩

/-- Everything MIX can do (44_speaker R253). -/
theorem mix_cases (s : State) :
    (s.pos = .mixerSetOwed ∧
      mix s = { s with upc := s.upc + 1, pos := .start, events := s.events ++ [.mixerSet s.cfg.mixerExpected] }) ∨
    (s.pos = .raiseOwed ∧ mix s =
      { s with
        ph := .done, pos := .start, res := { s.res with valid := true, err := 3#3 }
        events := s.events ++ [.result { s.res with valid := true, err := 3#3 }] }) ∨
    (s.pos ≠ .mixerSetOwed ∧ s.pos ≠ .raiseOwed ∧ (drawMixer s).1 = none ∧ mix s =
      { s with
        pos := .raiseOwed, answers := (drawMixer s).2.answers, events := s.events ++ [.mixerQuery none] }) ∨
    (s.pos ≠ .mixerSetOwed ∧ s.pos ≠ .raiseOwed ∧ (drawMixer s).1 = some s.cfg.mixerExpected ∧ mix s =
      { s with
        upc := s.upc + 1, pos := .start, answers := (drawMixer s).2.answers
        events := s.events ++ [.mixerQuery (some s.cfg.mixerExpected)] }) ∨
    (s.pos ≠ .mixerSetOwed ∧ s.pos ≠ .raiseOwed ∧ ∃ n, (drawMixer s).1 = some n ∧ n ≠ s.cfg.mixerExpected ∧ mix s =
      { s with
        pos := .mixerSetOwed, answers := (drawMixer s).2.answers, events := s.events ++ [.mixerQuery (some n)] }) := by
  by_cases hp : s.pos = .mixerSetOwed
  · exact .inl ⟨hp, by unfold mix; rw [hp]; rfl⟩
  by_cases hq : s.pos = .raiseOwed
  · exact .inr (.inl ⟨hq, by unfold mix; rw [hq]; rfl⟩)
  refine .inr (.inr ?_)
  have he : mix s = judgeMixer (drawMixer s).1 ((drawMixer s).2.emit (.mixerQuery (drawMixer s).1)) := by
    unfold mix; cases h : s.pos <;> first | rfl | exact absurd h hp | exact absurd h hq
  rw [he, drawMixer_eq]
  cases hv : (drawMixer s).1 with
  | none => exact .inl ⟨hp, hq, rfl, rfl⟩
  | some n =>
    by_cases hn : n = s.cfg.mixerExpected
    · subst hn; exact .inr (.inl ⟨hp, hq, rfl, by simp [judgeMixer, State.emit, State.advance]⟩)
    · exact .inr (.inr ⟨hp, hq, n, rfl, hn, by simp [judgeMixer, State.emit, State.goTo, hn]⟩)

/-- Everything DIRCHK can do (44_speaker R254). -/
theorem dirchk_cases (s : State) :
    (s.pos = .raiseOwed ∧ dirchk s =
      { s with
        ph := .done, pos := .start, res := { s.res with valid := true, err := 2#3 }
        events := s.events ++ [.result { s.res with valid := true, err := 2#3 }] }) ∨
    (s.pos ≠ .raiseOwed ∧ (drawProbe s).1 = true ∧ dirchk s =
      { s with
        upc := s.upc + 1, pos := .start, answers := (drawProbe s).2.answers, events := s.events ++ [.dirProbe true] }) ∨
    (s.pos ≠ .raiseOwed ∧ (drawProbe s).1 = false ∧ dirchk s =
      { s with
        pos := .raiseOwed, answers := (drawProbe s).2.answers, events := s.events ++ [.dirProbe false] }) := by
  by_cases hq : s.pos = .raiseOwed
  · exact .inl ⟨hq, by unfold dirchk; rw [hq]; rfl⟩
  refine .inr ?_
  have he : dirchk s = judgeProbe (drawProbe s).1 ((drawProbe s).2.emit (.dirProbe (drawProbe s).1)) := by
    unfold dirchk; cases h : s.pos <;> first | rfl | exact absurd h hq
  rw [he, drawProbe_eq]
  cases hv : (drawProbe s).1 with
  | true => exact .inl ⟨hq, rfl, rfl⟩
  | false => exact .inr ⟨hq, rfl, rfl⟩

/-- Everything SPKOPEN and SPKCLOSE can do (44_speaker R255, R257). -/
theorem configWrite_cases (reg : Config → Byte) (bytes : Config → ByteSeq) (s : State) :
    (s.regOpen = false ∧ onBus .reg (fun u => (regWrite (reg u.cfg) (bytes u.cfg) u).advance) s =
      { s with regOpen := true, events := s.events ++ [.opened .reg] }) ∨
    (s.regOpen = true ∧ onBus .reg (fun u => (regWrite (reg u.cfg) (bytes u.cfg) u).advance) s =
      { s with
        upc := s.upc + 1, pos := .start, events := s.events ++ [.regWrite s.arg (reg s.cfg) (bytes s.cfg)] }) := by
  rcases onBus_cases .reg (fun u => (regWrite (reg u.cfg) (bytes u.cfg) u).advance) s with ⟨h, e⟩ | ⟨h, e⟩
  · exact .inr ⟨h, e.trans rfl⟩
  · exact .inl ⟨h, e.trans rfl⟩

/-- Everything SPKREPLAY can do (44_speaker R256). -/
theorem spkReplay_cases (mode : Tag) (s : State) :
    (∃ d, s.pos = .directiveHeld d ∧ s.regOpen = false ∧ spkReplay mode s =
      { s with regOpen := true, events := s.events ++ [.opened .reg] }) ∨
    (∃ d, s.pos = .directiveHeld d ∧ s.regOpen = true ∧ spkReplay mode s =
      { s with
        pos := .start, applied := s.applied + 1, events := s.events ++ [.regWrite s.arg d.reg d.values] }) ∨
    ((∀ d, s.pos ≠ .directiveHeld d) ∧ (drawFetch s).1 = none ∧ spkReplay mode s =
      { s with
        upc := s.upc + 1, pos := .start, answers := (drawFetch s).2.answers, events := s.events ++ [.dirFetch none] }) ∨
    ((∀ d, s.pos ≠ .directiveHeld d) ∧ ∃ d, (drawFetch s).1 = some d ∧ tagMatches mode d = true ∧ spkReplay mode s =
      { s with
        pos := .directiveHeld d, answers := (drawFetch s).2.answers, events := s.events ++ [.dirFetch (some d)] }) ∨
    ((∀ d, s.pos ≠ .directiveHeld d) ∧ ∃ d, (drawFetch s).1 = some d ∧ tagMatches mode d = false ∧ spkReplay mode s =
      { s with
        pos := .start, answers := (drawFetch s).2.answers, events := s.events ++ [.dirFetch (some d)] }) := by
  by_cases hp : ∃ d, s.pos = .directiveHeld d
  · obtain ⟨d, hd⟩ := hp
    have he : spkReplay mode s = onBus .reg (applyDirective d) s := by unfold spkReplay; rw [hd]
    rw [he]
    rcases onBus_cases .reg (applyDirective d) s with ⟨h, e⟩ | ⟨h, e⟩
    · exact .inr (.inl ⟨d, hd, h, e.trans rfl⟩)
    · exact .inl ⟨d, hd, h, e.trans rfl⟩
  · have hp' : ∀ d, s.pos ≠ .directiveHeld d := fun d hd => hp ⟨d, hd⟩
    have he : spkReplay mode s =
        judgeDirective mode (drawFetch s).1 ((drawFetch s).2.emit (.dirFetch (drawFetch s).1)) := by
      unfold spkReplay; cases hq : s.pos <;> first | rfl | exact absurd hq (hp' _)
    rw [he, drawFetch_eq]
    refine .inr (.inr ?_)
    cases hv : (drawFetch s).1 with
    | none => exact .inl ⟨hp', rfl, rfl⟩
    | some d =>
      cases ht : tagMatches mode d with
      | true => exact .inr (.inl ⟨hp', d, rfl, ht, by simp [judgeDirective, State.emit, State.goTo, ht]⟩)
      | false => exact .inr (.inr ⟨hp', d, rfl, ht, by simp [judgeDirective, State.emit, State.goTo, ht]⟩)

/-- Everything a rejected attempt can do: a delay is owed, or the command ends (41_poll R177 (e)). -/
theorem rejected_cases (s : State) (a : Answers) (e : Event) :
    (attemptNumber s < s.cfg.maxAttempts ∧ rejected s a e =
      { s with att := attemptNumber s, answers := a, events := s.events ++ [e], pos := .delayOwed }) ∨
    (s.cfg.maxAttempts ≤ attemptNumber s ∧ rejected s a e =
      { s with
        att := attemptNumber s, answers := a, pos := .start, ph := .done
        res := { s.res with valid := true, err := 1#3, attempts := s.cfg.maxAttempts }
        events := s.events ++ [e] ++ [.result { s.res with valid := true, err := 1#3, attempts := s.cfg.maxAttempts }] }) := by
  unfold rejected
  by_cases h : attemptNumber s < s.cfg.maxAttempts
  · exact .inl ⟨h, if_pos h⟩
  · exact .inr ⟨Nat.le_of_not_lt h, if_neg h⟩

/-- What a polling step that is no attempt leaves alone. -/
theorem PollIdle.frame {b : Bus} {s t : State} (h : PollIdle b s t) :
    t.status = s.status ∧ t.rxb = s.rxb ∧ t.txb = s.txb ∧ t.raw = s.raw ∧ t.norm = s.norm ∧ t.dir = s.dir ∧
    t.applied = s.applied ∧ t.upc = s.upc ∧ t.cmd = s.cmd ∧ t.arg = s.arg ∧ t.argv = s.argv ∧ t.port = s.port ∧
    t.cfg = s.cfg ∧ t.answers = s.answers ∧ (b = .reg → t.hubOpen = s.hubOpen) ∧ (b = .hub → t.regOpen = s.regOpen) ∧
    (t.ph ≠ .done → t.res = s.res) := by
  rcases h with ⟨_, _, rfl⟩ | ⟨_, _, rfl⟩ | ⟨_, _, rfl⟩
  · simp
  · cases b <;> simp [State.openBus]
  · simp

/-- What a rejected attempt leaves alone. -/
theorem rejected_frame (s : State) (a : Answers) (e : Event) :
    (rejected s a e).status = s.status ∧ (rejected s a e).rxb = s.rxb ∧ (rejected s a e).txb = s.txb ∧
    (rejected s a e).raw = s.raw ∧ (rejected s a e).norm = s.norm ∧ (rejected s a e).dir = s.dir ∧
    (rejected s a e).applied = s.applied ∧ (rejected s a e).upc = s.upc ∧ (rejected s a e).cmd = s.cmd ∧
    (rejected s a e).arg = s.arg ∧ (rejected s a e).argv = s.argv ∧ (rejected s a e).port = s.port ∧
    (rejected s a e).cfg = s.cfg ∧ (rejected s a e).answers = a ∧ (rejected s a e).hubOpen = s.hubOpen ∧
    (rejected s a e).regOpen = s.regOpen ∧ ((rejected s a e).ph ≠ .done → (rejected s a e).res = s.res) := by
  unfold rejected; split <;> simp

/-- Which micro-operation runs at an index of a command's list (30_encoding R112). -/
theorem micro_cases {i : Instr} {s : State} {m : State → State} (h : (microList i)[s.upc]? = some m) :
    (hgetAt i s.upc = true ∧ m s = hget s) ∨
    (hsetAt i s.upc = true ∧ m s = hset s) ∨
    (∃ r, grdAt i s.upc s.dir = some r ∧ m s = grd r s) ∨
    (s.upc = finIndex i ∧ m s = finish (payloadOf i s) s) ∨
    ((i = .batteryState ∨ i = .batteryTime) ∧ s.upc = 1 ∧ m s =
      { s with norm := normalise s.raw, dir := directionOf (normalise s.raw), upc := 2, pos := .start }) ∨
    (isMutating i = true ∧ s.upc = 1 ∧
      m s = (match mutation i s.status with | some h => mutTo h s | none => mutSkip s)) ∨
    (∃ md, modeOf i = some md ∧
      ((s.upc = 0 ∧ m s = mix s) ∨ (s.upc = 1 ∧ m s = dirchk s) ∨ (s.upc = 2 ∧ m s = spkOpen s) ∨
       (s.upc = 3 ∧ m s = spkReplay md s) ∨ (s.upc = 4 ∧ m s = spkClose s))) := by
  have hk : s.upc < (microList i).length := by
    rw [List.getElem?_eq_some_iff] at h; exact h.1
  rw [microList_length] at hk
  by_cases hf : s.upc = finIndex i
  · right; right; right; left
    have := microList_fin i
    rw [← hf, h] at this
    cases this
    exact ⟨hf, rfl⟩
  by_cases h1 : hgetAt i s.upc = true
  · have := microList_hget h1; rw [h] at this; cases this; exact .inl ⟨h1, rfl⟩
  by_cases h2 : hsetAt i s.upc = true
  · have := microList_hset h2; rw [h] at this; cases this; exact .inr (.inl ⟨h2, rfl⟩)
  cases h3 : grdAt i s.upc s.dir with
  | some r =>
    obtain ⟨m', hm', he⟩ := microList_grd h3
    rw [h] at hm'; cases hm'; exact .inr (.inr (.inl ⟨r, rfl, he⟩))
  | none =>
    right; right; right; right
    cases hm : isMutating i with
    | true =>
      have hu : s.upc = 1 := by
        have : finIndex i = 5 := by cases i <;> simp [isMutating, finIndex] at hm ⊢
        simp [hgetAt, hsetAt, hm, isHub] at h1 h2
        omega
      obtain ⟨m', hm', he⟩ := microList_mut hm
      rw [hu] at h; rw [h] at hm'; cases hm'
      exact .inr (.inl ⟨rfl, hu, he s⟩)
    | false =>
      cases hmd : modeOf i with
      | some md =>
        refine .inr (.inr ⟨md, rfl, ?_⟩)
        rw [microList_speaker hmd] at h
        have hf' : finIndex i = 5 := by cases i <;> simp [modeOf, finIndex] at hmd ⊢
        have : s.upc < 5 := by omega
        generalize s.upc = k at h this ⊢
        match k, this with
        | 0, _ => cases h; exact .inl ⟨rfl, rfl⟩
        | 1, _ => cases h; exact .inr (.inl ⟨rfl, rfl⟩)
        | 2, _ => cases h; exact .inr (.inr (.inl ⟨rfl, rfl⟩))
        | 3, _ => cases h; exact .inr (.inr (.inr (.inl ⟨rfl, rfl⟩)))
        | 4, _ => cases h; exact .inr (.inr (.inr (.inr ⟨rfl, rfl⟩)))
      | none =>
        left
        have hcl : ∀ m, some classify = some m → s.upc = 1 → m s =
            { s with norm := normalise s.raw, dir := directionOf (normalise s.raw), upc := 2, pos := .start } := by
          intro m hm' hu; cases hm'; simp [classify, State.advance, hu]
        cases i <;> simp [isMutating, modeOf] at hm hmd <;>
          simp [hgetAt, isHub, isReadOnly, isMutating, finIndex, grdAt, microList, readList] at h h1 hf hk h3
        · have hu : s.upc = 1 := by omega
          rw [hu] at h; exact ⟨.inl rfl, hu, hcl m (by simpa using h) hu⟩
        · omega
        · have hu : s.upc = 1 := by
            by_contra hne
            have hz : s.upc = 0 ∨ s.upc = 2 := by omega
            rcases hz with e | e <;> simp [e] at h3
          rw [hu] at h; exact ⟨.inr rfl, hu, hcl m (by simpa using h) hu⟩
        all_goals omega

end Sys2Proof.Machine
end

