-- ==== Sys2Proof/Laws/PerInstr.lean ====
section
/-! SUPPORT. The family RoundTrip: the word of every command decodes to it (30_encoding R106), one lemma per command. -/

namespace Sys2Proof.Laws

/-- The word of the command decodes to the command (30_encoding R106, R109). -/
def RoundTrip.Statement (i : Instr) : Prop := decodeWord (encode i) = .ok i

theorem RoundTrip.batteryState : RoundTrip.Statement .batteryState := rfl
theorem RoundTrip.batteryCapacity : RoundTrip.Statement .batteryCapacity := rfl
theorem RoundTrip.batteryTime : RoundTrip.Statement .batteryTime := rfl
theorem RoundTrip.systemState : RoundTrip.Statement .systemState := rfl
theorem RoundTrip.systemOff : RoundTrip.Statement .systemOff := rfl
theorem RoundTrip.backlightState : RoundTrip.Statement .backlightState := rfl
theorem RoundTrip.backlight1 : RoundTrip.Statement .backlight1 := rfl
theorem RoundTrip.backlight2 : RoundTrip.Statement .backlight2 := rfl
theorem RoundTrip.backlight3 : RoundTrip.Statement .backlight3 := rfl
theorem RoundTrip.backlight4 : RoundTrip.Statement .backlight4 := rfl
theorem RoundTrip.backlight5 : RoundTrip.Statement .backlight5 := rfl
theorem RoundTrip.backlight6 : RoundTrip.Statement .backlight6 := rfl
theorem RoundTrip.backlight7 : RoundTrip.Statement .backlight7 := rfl
theorem RoundTrip.backlight8 : RoundTrip.Statement .backlight8 := rfl
theorem RoundTrip.backlight9 : RoundTrip.Statement .backlight9 := rfl
theorem RoundTrip.backlight10 : RoundTrip.Statement .backlight10 := rfl
theorem RoundTrip.backlightIncrease : RoundTrip.Statement .backlightIncrease := rfl
theorem RoundTrip.backlightDecrease : RoundTrip.Statement .backlightDecrease := rfl
theorem RoundTrip.backlightOn : RoundTrip.Statement .backlightOn := rfl
theorem RoundTrip.backlightOff : RoundTrip.Statement .backlightOff := rfl
theorem RoundTrip.lidState : RoundTrip.Statement .lidState := rfl
theorem RoundTrip.speakerLeft : RoundTrip.Statement .speakerLeft := rfl
theorem RoundTrip.speakerRight : RoundTrip.Statement .speakerRight := rfl
theorem RoundTrip.speakerMono : RoundTrip.Statement .speakerMono := rfl

end Sys2Proof.Laws
end

