-- ==== Sys2Proof/Laws/Run.lean ====
section
/-! SUPPORT. Runs of several steps, one step at a time and in pieces. -/

namespace Sys2Proof.Machine

theorem Reaches.refl (s : State) : Reaches 0 s s := rfl

theorem Reaches.step {n : Nat} {s u t : State} (h : Machine.step s = .next u) (r : Reaches n u t) :
    Reaches (n + 1) s t := by
  have h' : Sys2Proof.core.step s = Host.Outcome.next u := h
  unfold Reaches at *
  simp only [Host.Core.run, h']
  exact r

theorem Reaches.of_succ {n : Nat} {s t : State} (r : Reaches (n + 1) s t) :
    ∃ u, Machine.step s = .next u ∧ Reaches n u t := by
  unfold Reaches at r
  simp only [Host.Core.run] at r
  cases hs : Sys2Proof.core.step s with
  | next u => rw [hs] at r; exact ⟨u, hs, r⟩
  | fault f => rw [hs] at r; cases r
  | refused f => rw [hs] at r; cases r

theorem Reaches.trans {m n : Nat} {s u t : State} (h : Reaches m s u) (r : Reaches n u t) : Reaches (m + n) s t := by
  induction m generalizing s with
  | zero => cases h; simpa using r
  | succ m ih =>
    obtain ⟨v, hv, h'⟩ := h.of_succ
    rw [show m + 1 + n = (m + n) + 1 by omega]
    exact Reaches.step hv (ih h')

theorem Reaches.one {s t : State} (h : Machine.step s = .next t) : Reaches 1 s t := Reaches.step h (Reaches.refl t)

/-- Everything a step keeps holds along a run. -/
theorem Reaches.keeps {P : State → Prop} (hP : ∀ s t, P s → Machine.step s = .next t → P t) {n : Nat} {s t : State}
    (h : P s) (r : Reaches n s t) : P t := by
  induction n generalizing s with
  | zero => cases r; exact h
  | succ n ih =>
    obtain ⟨u, hu, r'⟩ := r.of_succ
    exact ih (hP s u h hu) r'

/-- The step of a running command is the micro-operation at `UPC`. -/
theorem step_micro {s : State} {i : Instr} {m : State → State} (hp : s.ph = .run) (hd : decodeCommand s.cmd = some i)
    (hm : (microList i)[s.upc]? = some m) : step s = .next (m s) := by
  rw [step_run hp hd, exec_run hp hm]

theorem withDelays_cons (e : Event) {es : List Event} (h : es ≠ []) :
    withDelays (e :: es) = e :: .delay :: withDelays es := by
  cases es with
  | nil => exact absurd rfl h
  | cons f es => rfl

end Sys2Proof.Machine
end

