-- ==== Sys2Proof/Tests/Slice0.lean ====
section
/-! SUPPORT. Tests: ill-formed inputs the checks refuse, every command's word written out from 30_encoding R106, single steps
with results from spec/95_test_vectors.md, and for each statement with hypotheses a witness that meets them together. -/

namespace Sys2Proof.Tests

open Sys2Proof.Machine

/-! ### Helpers -/

/-- A well-formed configuration with small numbers; the OPEN values are arbitrary. -/
def cfg : Config :=
  { maxAttempts := 20, pollDelay := 100, hubClk := 0, statusReq := 0xFF#8, gaugeAddr := 0x55, regState := 1#8
    regCapacity := 2#8, regChargeTime := 3#8, regDischargeTime := 4#8, zeroFilterAll := true, addrW := 8
    spkCfgReg := 0x10#8, spkCfgOpen := ⟨0x01#8, []⟩, spkCfgClose := ⟨0x00#8, []⟩, mixerExpected := 4 }

/-- Reset with the configuration above. -/
def base : State := { State.reset with cfg := cfg }

/-- Queued answers of the hub and of the gauge. -/
def hubAnswers (q : List (List Byte)) : Answers := { Answers.none with hub := q }
def gaugeAnswers (q : List (Option Word)) : Answers := { Answers.none with gauge := q }

/-- A running command `i` at micro-operation `k`, both buses open. -/
def running (i : Instr) (k : Nat) : State :=
  { base with ph := .run, cmd := encode i, argv := true, arg := 0x18, upc := k, hubOpen := true, regOpen := true }

/-- An idle block with the word `w` presented. -/
def presented (w : Byte) (argv : Bool) : State := { base with port := some ⟨w, 0x18, argv⟩ }

/-- What a step leaves in a field, `none` where it answers no next state. -/
def after {α : Type} (o : Host.Outcome State Fault Refusal) (f : State → α) : Option α :=
  match o with
  | .next t    => some (f t)
  | .fault _   => none
  | .refused _ => none

/-- Tags and directives of 95_test_vectors 2.9. -/
def dAlways : Directive := ⟨.always, 0x01#8, ⟨0x10#8, []⟩⟩
def dLeft : Directive := ⟨.left, 0x02#8, ⟨0x20#8, []⟩⟩
def dMono : Directive := ⟨.mono, 0x03#8, ⟨0x30#8, [0x31#8]⟩⟩
def dOther : Directive := ⟨.other, 0x04#8, ⟨0x40#8, []⟩⟩

/-- A list of gauge answers is rejected when each of them is. -/
theorem rejectedAll {zf : Bool} {r : GaugeReg} {bad : List (Option Word)}
    (h : bad.all (fun x => (acceptGauge zf r x).isNone) = true) : ∀ x ∈ bad, acceptGauge zf r x = none := by
  intro x hx
  simpa using List.all_eq_true.mp h x hx

/-! ### Ill-formed inputs -/

/-- 00_scope R7: a budget of 0 is refused. -/
theorem test_wf_budget : ({ cfg with maxAttempts := 0 } : Config).wf = false := by decide
/-- 00_scope R7: two equal gauge registers are refused. -/
theorem test_wf_registers : ({ cfg with regCapacity := 1#8 } : Config).wf = false := by decide
/-- 20_memory R61: a gauge address of more than `ADDR_W` bits is refused. -/
theorem test_wf_gaugeAddr : ({ cfg with gaugeAddr := 0x100 } : Config).wf = false := by decide
/-- 40_codec R151: 0x50 encodes brightness 10, so it is refused as the status request. -/
theorem test_wf_request : ({ cfg with statusReq := 0x50#8 } : Config).wf = false := by decide
/-- 40_codec R151: 0xFF is not in the image of ENCODE. -/
theorem test_wf_ok : cfg.wf = true := by decide
/-- 30_encoding R107: an operand of 9 bits does not fit 8 lines, one of 8 bits does. -/
theorem test_wf_operand :
    Presented.wf cfg ⟨0x40#8, 256, true⟩ = false ∧ Presented.wf cfg ⟨0x40#8, 255, true⟩ = true := by decide

/-! ### Every command's word, from the columns dev and op of 30_encoding R106 -/

theorem test_decode_batteryState : decodeWord 0b00000000#8 = .ok .batteryState := by rfl
theorem test_decode_batteryCapacity : decodeWord 0b00000001#8 = .ok .batteryCapacity := by rfl
theorem test_decode_batteryTime : decodeWord 0b00000010#8 = .ok .batteryTime := by rfl
theorem test_decode_systemState : decodeWord 0b00010000#8 = .ok .systemState := by rfl
theorem test_decode_systemOff : decodeWord 0b00010001#8 = .ok .systemOff := by rfl
theorem test_decode_backlightState : decodeWord 0b00100000#8 = .ok .backlightState := by rfl
theorem test_decode_backlight1 : decodeWord 0b00100001#8 = .ok .backlight1 := by rfl
theorem test_decode_backlight2 : decodeWord 0b00100010#8 = .ok .backlight2 := by rfl
theorem test_decode_backlight3 : decodeWord 0b00100011#8 = .ok .backlight3 := by rfl
theorem test_decode_backlight4 : decodeWord 0b00100100#8 = .ok .backlight4 := by rfl
theorem test_decode_backlight5 : decodeWord 0b00100101#8 = .ok .backlight5 := by rfl
theorem test_decode_backlight6 : decodeWord 0b00100110#8 = .ok .backlight6 := by rfl
theorem test_decode_backlight7 : decodeWord 0b00100111#8 = .ok .backlight7 := by rfl
theorem test_decode_backlight8 : decodeWord 0b00101000#8 = .ok .backlight8 := by rfl
theorem test_decode_backlight9 : decodeWord 0b00101001#8 = .ok .backlight9 := by rfl
theorem test_decode_backlight10 : decodeWord 0b00101010#8 = .ok .backlight10 := by rfl
theorem test_decode_backlightIncrease : decodeWord 0b00101011#8 = .ok .backlightIncrease := by rfl
theorem test_decode_backlightDecrease : decodeWord 0b00101100#8 = .ok .backlightDecrease := by rfl
theorem test_decode_backlightOn : decodeWord 0b00101101#8 = .ok .backlightOn := by rfl
theorem test_decode_backlightOff : decodeWord 0b00101110#8 = .ok .backlightOff := by rfl
theorem test_decode_lidState : decodeWord 0b00110000#8 = .ok .lidState := by rfl
theorem test_decode_speakerLeft : decodeWord 0b01000000#8 = .ok .speakerLeft := by rfl
theorem test_decode_speakerRight : decodeWord 0b01000001#8 = .ok .speakerRight := by rfl
theorem test_decode_speakerMono : decodeWord 0b01000010#8 = .ok .speakerMono := by rfl
/-- V2.64: the reserved words named there. -/
theorem test_decode_reserved :
    [0x03#8, 0x0F#8, 0x12#8, 0x1F#8, 0x2F#8, 0x31#8, 0x3F#8, 0x43#8, 0x4F#8, 0x50#8, 0x80#8, 0xFF#8].map decodeCommand =
      List.replicate 12 none := by decide
/-- The opcode table's numbering: one word of 8 bits. -/
theorem test_decode_tableWord : decodeTableWord 8 0x2B = some .backlightIncrease := by rfl

/-! ### CODEC and the predicates, from the vectors -/

/-- V2.12: 0x2C. -/
theorem test_codec_2C :
    decodeStatus 0x2C#8 = ⟨false, false, true, 5#4, false, false⟩ ∧ encodeOf (decodeStatus 0x2C#8) = 0x28#8 := by decide
/-- V2.19: 0xAA; V2.16: 0x7F. -/
theorem test_codec_AA_7F :
    decodeStatus 0xAA#8 = ⟨false, true, false, 5#4, true, false⟩ ∧ encodeOf (decodeStatus 0x7F#8) = 0x7B#8 := by decide
/-- V2.26: the boundaries of OK_STATE. -/
theorem test_okState :
    okState 0x0FA0#16 = true ∧ okState 0x0FA1#16 = false ∧ okState 0xF060#16 = true ∧ okState 0xF05F#16 = false := by
  decide
/-- V2.27, V2.28: the boundaries of the unsigned predicates, and the zero filter. -/
theorem test_okUnsigned :
    okCap 100#16 = true ∧ okCap 101#16 = false ∧ okChgTime 2400#16 = true ∧ okChgTime 2401#16 = false ∧
    okDisTime 1800#16 = true ∧ okDisTime 1801#16 = false ∧ acceptGauge false .capacity (some 0#16) = none ∧
    acceptGauge false .chargeTime (some 0#16) = some 0#16 ∧ acceptGauge true .chargeTime (some 0#16) = none := by decide
/-- V2.24: OK_HUB. -/
theorem test_okHub :
    okHub [] = none ∧ okHub [0x00#8, 0xFF#8] = none ∧ okHub [0x2C#8, 0x99#8] = some 0x2C#8 := by decide

/-! ### One step of each kind, from the vectors and programs -/

/-- P1 step 1: 0x2B is accepted. -/
theorem test_step_accept :
    after (step (presented 0x2B#8 false)) (fun t => (t.ph, t.cmd, t.upc, t.port)) = some (.run, 0x2B#8, 0, none) := by
  decide
/-- V2.64: 0x2F ends in InvalidArgument with one event. -/
theorem test_step_reserved :
    after (step (presented 0x2F#8 true)) (fun t => (t.ph, t.res.err, t.events)) =
      some (.done, 4#3, [.result { Res.empty with valid := true, err := 4#3 }]) := by decide
/-- V2.65: SPEAKER.LEFT without its operand, and BACKLIGHT.ON with one. -/
theorem test_step_operand :
    after (step (presented 0x40#8 false)) (fun t => t.res.err) = some 4#3 ∧
    after (step (presented 0x2D#8 true)) (fun t => t.ph) = some .run := by decide
/-- P1 step 3: a zero byte is rejected. -/
theorem test_step_hgetRejected :
    after (step { running .backlightIncrease 0 with answers := hubAnswers [[0x00#8]] }) (fun t => (t.att, t.upc, t.pos)) =
      some (1, 0, .delayOwed) := by decide
/-- P1 step 5: 0x4C is accepted. -/
theorem test_step_hgetAccepted :
    after (step { running .backlightIncrease 0 with answers := hubAnswers [[0x4C#8]], pos := .delayTaken, att := 1 })
      (fun t => (t.att, t.rxb, t.status, t.upc)) =
      some (2, 0x4C#8, ⟨false, false, true, 9#4, false, false⟩, 1) := by decide
/-- P1 step 7: the byte sent is ENCODE(0, 0, 10). -/
theorem test_step_hset :
    after (step
      { running .backlightIncrease 2 with
        answers := hubAnswers [[0x00#8]], status := ⟨false, false, true, 10#4, false, false⟩ })
      (fun t => (t.txb, t.att, t.events)) = some (0x50#8, 1, [.hubXfer 0x50#8 [0x00#8]]) := by decide
/-- V2.23: the 20th rejected attempt ends in BusFailure(20). -/
theorem test_step_busFailure :
    after (step { running .lidState 0 with answers := hubAnswers [[0x00#8]], pos := .delayTaken, att := 19 })
      (fun t => (t.ph, t.upc, t.res.report)) = some (.done, 0, .failed (.busFailure 20)) := by decide
/-- P2 step 6: -500 is Discharging. -/
theorem test_step_classify :
    after (step { running .batteryTime 1 with raw := 0xFE0C#16 }) (fun t => (t.norm, t.dir, t.upc)) =
      some (-500, .discharging, 2) := by decide
/-- P2 step 9: the discharging-time register, 1800 accepted. -/
theorem test_step_grdTime :
    after (step { running .batteryTime 2 with dir := .discharging, answers := gaugeAnswers [some 0x0708#16] })
      (fun t => (t.raw, t.upc, t.events)) =
      some (0x0708#16, 3, [.regRead 0x55 4#8 2 (some 0x0708#16)]) := by decide
/-- V2.31: a state word of 4001 is rejected. -/
theorem test_step_batteryState :
    after (step { running .batteryState 0 with answers := gaugeAnswers [some 0x0FA1#16] }) (fun t => t.pos) =
      some .delayOwed := by decide
/-- V2.33: a capacity of 100 is accepted. -/
theorem test_step_batteryCapacity :
    after (step { running .batteryCapacity 0 with answers := gaugeAnswers [some 0x0064#16] }) (fun t => (t.raw, t.upc)) =
      some (100#16, 1) := by decide
/-- V2.60: SYSTEM.STATE, LID.STATE and BACKLIGHT.STATE deliver the status they read. -/
theorem test_step_readOnly :
    after (step { running .systemState 1 with rxb := 0x2D#8, status := decodeStatus 0x2D#8 }) (fun t => t.res.report) =
      some (.ok (.status 0x2D#8 ⟨true, false, true, 5#4, true, false⟩)) ∧
    viewOf .lidState (decodeStatus 0x28#8) = some (.lidOpen false) ∧
    viewOf .backlightState (decodeStatus 0x2E#8) = some .off := by decide

/-- A MUT step: the fields after it as (power_off, screen_off, brightness), and `UPC`. -/
def mutOf (i : Instr) (b : Byte) : Option (Bool × Bool × Nibble × Nat) :=
  after (exec i { running i 1 with status := decodeStatus b })
    (fun t => (t.status.powerOff, t.status.screenOff, t.status.brightness, t.upc))

/-- V2.37, V2.39. -/
theorem test_mut_systemOff :
    mutOf .systemOff 0x2C#8 = some (true, false, 5#4, 2) ∧ mutOf .systemOff 0x7E#8 = some (true, true, 15#4, 2) := by
  decide
/-- V2.40, V2.42, V2.43, V2.44, V2.45. -/
theorem test_mut_increase :
    [0x4C#8, 0x56#8, 0x04#8, 0x60#8, 0x2E#8].map (mutOf .backlightIncrease) =
      [some (false, false, 10#4, 2), some (false, true, 10#4, 5), some (false, false, 1#4, 2),
       some (false, false, 12#4, 5), some (false, false, 6#4, 2)] := by decide
/-- V2.46 to V2.51. -/
theorem test_mut_decrease :
    [0x50#8, 0x90#8, 0x88#8, 0x04#8, 0x78#8, 0xD8#8].map (mutOf .backlightDecrease) =
      [some (false, false, 9#4, 2), some (false, false, 1#4, 2), some (false, false, 1#4, 5),
       some (false, false, 0#4, 5), some (false, false, 14#4, 2), some (false, false, 10#4, 2)] := by decide
/-- V2.52, V2.54, V2.56. -/
theorem test_mut_onOff :
    mutOf .backlightOn 0x56#8 = some (false, false, 5#4, 2) ∧ mutOf .backlightOff 0x2C#8 = some (false, true, 5#4, 2) ∧
    mutOf .backlightOff 0x29#8 = some (true, true, 5#4, 2) := by decide
/-- V2.57, V2.58, V2.59 and 30_encoding R116: the level is in the word. -/
theorem test_mut_levels :
    ([.backlight1, .backlight2, .backlight3, .backlight4, .backlight5, .backlight6, .backlight7, .backlight8, .backlight9,
      .backlight10] : List Instr).map (fun i => mutOf i 0x56#8) =
      [1#4, 2#4, 3#4, 4#4, 5#4, 6#4, 7#4, 8#4, 9#4, 10#4].map (fun n => some (false, false, n, 2)) := by decide
/-- V2.69, V2.68, 20_memory R77: MIX with no answer, the failure in the next step, and MIX with another input. -/
theorem test_step_mix :
    after (step { running .speakerLeft 0 with answers := { Answers.none with mixer := [none] } })
      (fun t => (t.ph, t.pos, t.events)) = some (.run, .raiseOwed, [.mixerQuery none]) ∧
    after (step { running .speakerLeft 0 with pos := .raiseOwed }) (fun t => (t.ph, t.res.err, t.events.length)) =
      some (.done, 3#3, 1) ∧
    after (step { running .speakerLeft 0 with answers := { Answers.none with mixer := [some 7] } }) (fun t => t.pos) =
      some .mixerSetOwed := by decide
/-- V2.70, 20_memory R77: a missing directive source, the failure in the next step. -/
theorem test_step_dirchk :
    after (step { running .speakerRight 1 with answers := { Answers.none with probe := [false] } })
      (fun t => (t.ph, t.pos, t.events)) = some (.run, .raiseOwed, [.dirProbe false]) ∧
    after (step { running .speakerRight 1 with pos := .raiseOwed }) (fun t => (t.ph, t.res.err, t.events.length)) =
      some (.done, 2#3, 1) := by decide
/-- V2.67: SPEAKER.MONO skips a LEFT directive and holds a MONO one. -/
theorem test_step_replay :
    after (step { running .speakerMono 3 with answers := { Answers.none with fetch := [some dLeft] } }) (fun t => t.pos) =
      some .start ∧
    after (step { running .speakerMono 3 with answers := { Answers.none with fetch := [some dMono] } }) (fun t => t.pos) =
      some (.directiveHeld dMono) := by decide
/-- V2.67: the write of a held directive is counted. -/
theorem test_step_apply :
    after (step { running .speakerLeft 3 with pos := .directiveHeld dLeft, applied := 1 })
      (fun t => (t.applied, t.events)) = some (2, [.regWrite 0x18 0x02#8 ⟨0x20#8, []⟩]) := by decide
/-- The word placed for the next step is the one it accepts, as the first instruction after reset. -/
theorem test_withFetchWord :
    after (step (State.reset.withFetchWord 8 0x42)) (fun t => (t.ph, t.cmd, t.argv)) = some (.run, 0x42#8, true) := by
  decide

/-! ### Witnesses: the hypotheses of each statement can be met -/

theorem witness_ParityIsXorOfAllBits : 4 ≤ 8 := by decide
theorem witness_NormaliseIsTwosComplement : (0x7FFF#16)[15] = false ∧ (0x8000#16)[15] = true := by decide
theorem witness_EncodeHas64Results : encodeStatus true true 15#4 = encodeStatus true true 15#4 := rfl
theorem witness_GaugeAnswerAcceptance :
    acceptGauge false .state (some 0#16) = some 0#16 ∧ acceptGauge true .state (some 0xF060#16) = some 0xF060#16 ∧
    acceptGauge true .capacity (some 1#16) = some 1#16 ∧ acceptGauge true .chargeTime (some 2400#16) = some 2400#16 ∧
    acceptGauge true .dischargeTime (some 1800#16) = some 1800#16 := by decide
theorem witness_ViewByDevice :
    (devField (encode .systemOff)).toNat = 1 ∧ (devField (encode .backlightOff)).toNat = 2 ∧
    (devField (encode .lidState)).toNat = 3 ∧ (decodeStatus 0x2E#8).screenOff = true ∧
    (decodeStatus 0x2C#8).screenOff = false := by decide
theorem witness_HostResetIsReset : base.ph ≠ .run ∧ (running .lidState 0).ph = .run := by decide
theorem witness_StepRunsDecodedCommand :
    (presented 0x42#8 true).ph = .idle ∧ (presented 0x42#8 true).port = some ⟨0x42#8, 0x18, true⟩ ∧
    decodeCommand 0x42#8 = some .speakerMono ∧ (running .lidState 0).ph = .run ∧
    decodeCommand (running .lidState 0).cmd = some .lidState := by decide
theorem witness_AcceptanceStartsTheCommand :
    (presented 0x40#8 true).ph = .idle ∧ (presented 0x40#8 true).port = some ⟨0x40#8, 0x18, true⟩ ∧
    0x18 < 2 ^ (presented 0x40#8 true).cfg.addrW ∧ decodeCommand 0x40#8 = some .speakerLeft ∧
    (needsOperand .speakerLeft = true → true = true) := by decide
theorem witness_CommandCheckRejects :
    (presented 0x2F#8 true).ph = .idle ∧ decodeCommand 0x2F#8 = none ∧ 0x18 < 2 ^ (presented 0x2F#8 true).cfg.addrW ∧
    (presented 0x42#8 false).port = some ⟨0x42#8, 0x18, false⟩ ∧ decodeCommand 0x42#8 = some .speakerMono ∧
    needsOperand .speakerMono = true := by decide
theorem witness_PresentedCommandIgnoredUnlessIdle :
    (running .lidState 1).ph ≠ .idle ∧ ∃ t, step (running .lidState 1) = .next t := ⟨by decide, _, rfl⟩
theorem witness_IdleWaitsAndDoneStays :
    base.ph = .idle ∧ base.port = none ∧ ({ running .lidState 1 with ph := .done } : State).ph = .done := by decide

/-- A delay owed after one attempt, in each of the three polling micro-operations. -/
theorem witness_DelayBeforeEveryRetry :
    (running .lidState 0).ph = .run ∧ pollsAt .lidState 0 .unknown = true ∧ pollsAt .systemOff 2 .unknown = true ∧
    pollsAt .batteryTime 2 .charging = true ∧
    ({ running .lidState 0 with pos := .delayOwed, att := 19 } : State).att < cfg.maxAttempts := by decide
theorem witness_BusOpensBeforeItsFirstTransaction :
    (running .lidState 0).pos = .start ∧ 0 < (running .lidState 0).cfg.maxAttempts ∧ hgetAt .lidState 0 = true ∧
    ({ running .lidState 0 with hubOpen := false } : State).hubOpen = false ∧
    (grdAt .batteryCapacity 0 .unknown).isSome = true ∧
    ({ running .batteryCapacity 0 with regOpen := false } : State).regOpen = false := by decide
/-- A first attempt and the last retry. -/
theorem witness_StatusReadAccepted :
    let s := { running .lidState 0 with answers := hubAnswers [[0x2C#8]] }
    let r := { s with pos := .delayTaken, att := 19 }
    s.ph = .run ∧ hgetAt .lidState s.upc = true ∧ s.hubOpen = true ∧ attemptDue s = true ∧ attemptDue r = true ∧
    okHub (drawHub s).1 = some 0x2C#8 ∧ okHub (drawHub r).1 = some 0x2C#8 := by decide
theorem witness_StatusWriteAccepted :
    let s := { running .systemOff 2 with answers := hubAnswers [[0x01#8]] }
    let r := { s with pos := .delayTaken, att := 1, txb := 0x2D#8 }
    s.ph = .run ∧ hsetAt .systemOff s.upc = true ∧ s.hubOpen = true ∧ attemptDue s = true ∧ s.inPoll = false ∧
    attemptDue r = true ∧ r.inPoll = true ∧ okHub (drawHub s).1 = some 0x01#8 ∧ okHub (drawHub r).1 = some 0x01#8 := by
  decide
theorem witness_GaugeReadAccepted :
    let s := { running .batteryTime 2 with dir := .charging, answers := gaugeAnswers [some 2400#16] }
    s.ph = .run ∧ grdAt .batteryTime s.upc s.dir = some .chargeTime ∧ s.regOpen = true ∧ attemptDue s = true ∧
    acceptGauge s.cfg.zeroFilterAll .chargeTime (drawGauge s).1 = some 2400#16 := by decide
/-- Each clause, with budget left and at the last attempt. -/
theorem witness_RejectedAttempt :
    let s := { running .systemOff 0 with answers := hubAnswers [[0x00#8]] }
    let w := { running .systemOff 2 with answers := hubAnswers [[]] }
    let g := { running .batteryCapacity 0 with answers := gaugeAnswers [none] }
    s.ph = .run ∧ attemptDue s = true ∧ attemptDue { s with pos := .delayTaken, att := 19 } = true ∧
    hgetAt .systemOff s.upc = true ∧ s.hubOpen = true ∧ okHub (drawHub s).1 = none ∧ attemptDue w = true ∧
    hsetAt .systemOff w.upc = true ∧ okHub (drawHub w).1 = none ∧ attemptDue g = true ∧
    grdAt .batteryCapacity g.upc g.dir = some .capacity ∧ g.regOpen = true ∧
    acceptGauge g.cfg.zeroFilterAll .capacity (drawGauge g).1 = none := by decide

/-- V2.22: nineteen rejected answers, then one accepted. -/
theorem witness_StatusReadPollCounts :
    let bad : List (List Byte) := List.replicate 19 [0x00#8]
    let s := { running .lidState 0 with answers := hubAnswers (bad ++ [0x88#8] :: []) }
    s.ph = .run ∧ decodeCommand s.cmd = some .lidState ∧ hgetAt .lidState s.upc = true ∧ s.pos = .start ∧
    s.hubOpen = true ∧ s.answers.hub = bad ++ [0x88#8] :: [] ∧ (∀ x ∈ bad, okHub x = none) ∧
    bad.length < s.cfg.maxAttempts ∧ okHub [0x88#8] = some 0x88#8 := by decide
theorem witness_StatusWritePollCounts :
    let bad : List (List Byte) := [[0x00#8]]
    let s := { running .systemOff 2 with answers := hubAnswers (bad ++ [0x4C#8] :: []) }
    s.ph = .run ∧ decodeCommand s.cmd = some .systemOff ∧ hsetAt .systemOff s.upc = true ∧ s.pos = .start ∧
    s.hubOpen = true ∧ s.answers.hub = bad ++ [0x4C#8] :: [] ∧ (∀ x ∈ bad, okHub x = none) ∧
    bad.length < s.cfg.maxAttempts ∧ okHub [0x4C#8] = some 0x4C#8 := by decide
theorem witness_GaugeReadPollCounts :
    let bad : List (Option Word) := [some 0#16, none]
    let s := { running .batteryCapacity 0 with answers := gaugeAnswers (bad ++ some 47#16 :: []) }
    s.ph = .run ∧ decodeCommand s.cmd = some .batteryCapacity ∧
    grdAt .batteryCapacity s.upc s.dir = some .capacity ∧ s.pos = .start ∧ s.regOpen = true ∧
    s.answers.gauge = bad ++ some 47#16 :: [] ∧
    (∀ x ∈ bad, acceptGauge s.cfg.zeroFilterAll .capacity x = none) ∧ bad.length < s.cfg.maxAttempts ∧
    acceptGauge s.cfg.zeroFilterAll .capacity (some 47#16) = some 47#16 := by
  intro bad s
  refine ⟨?_, ?_, ?_, ?_, ?_, ?_, ?_, ?_, ?_⟩ <;> first | exact rejectedAll (by decide) | decide
/-- V2.23. -/
theorem witness_StatusReadPollFails :
    let bad : List (List Byte) := List.replicate 20 [0x00#8]
    let s := { running .lidState 0 with answers := hubAnswers (bad ++ []) }
    s.ph = .run ∧ decodeCommand s.cmd = some .lidState ∧ hgetAt .lidState s.upc = true ∧ s.pos = .start ∧
    s.hubOpen = true ∧ s.answers.hub = bad ++ [] ∧ (∀ x ∈ bad, okHub x = none) ∧
    bad.length = s.cfg.maxAttempts ∧ 0 < s.cfg.maxAttempts := by decide

/-- V2.30: both sides of the threshold. -/
theorem witness_ClassifyByThreshold :
    (running .batteryState 1).ph = .run ∧ (running .batteryState 1).upc = 1 ∧ -10 ≤ normalise 0xFFF6#16 ∧
    normalise 0xFFF5#16 < -10 := by decide
/-- For every command. -/
theorem witness_ResultDelivered (i : Instr) :
    (running i (finIndex i)).ph = .run ∧ (running i (finIndex i)).upc = finIndex i := ⟨rfl, rfl⟩
/-- V2.29. -/
theorem witness_BatteryStateCommand :
    let s : State := { presented 0x00#8 false with answers := gaugeAnswers [some 0xF05F#16, some 0xFFFB#16] }
    s.ph = .idle ∧ s.port = some ⟨0x00#8, 0x18, false⟩ ∧ s.regOpen = false ∧
    s.answers.gauge = [some 0xF05F#16] ++ some 0xFFFB#16 :: [] ∧
    (∀ x ∈ [some 0xF05F#16], acceptGauge s.cfg.zeroFilterAll .state x = none) ∧ 1 < s.cfg.maxAttempts ∧
    acceptGauge s.cfg.zeroFilterAll .state (some 0xFFFB#16) = some 0xFFFB#16 := by
  intro s
  refine ⟨?_, ?_, ?_, ?_, ?_, ?_, ?_⟩ <;> first | exact rejectedAll (by decide) | decide
/-- V2.33. -/
theorem witness_BatteryCapacityCommand :
    let bad : List (Option Word) := [some 0x65#16, some 0xFFFF#16, none]
    let s : State := { presented 0x01#8 false with answers := gaugeAnswers (bad ++ some 0x64#16 :: []) }
    s.ph = .idle ∧ s.port = some ⟨0x01#8, 0x18, false⟩ ∧ s.regOpen = false ∧
    s.answers.gauge = bad ++ some 0x64#16 :: [] ∧
    (∀ x ∈ bad, acceptGauge s.cfg.zeroFilterAll .capacity x = none) ∧ bad.length < s.cfg.maxAttempts ∧
    acceptGauge s.cfg.zeroFilterAll .capacity (some 0x64#16) = some 0x64#16 := by
  intro bad s
  refine ⟨?_, ?_, ?_, ?_, ?_, ?_, ?_⟩ <;> first | exact rejectedAll (by decide) | decide
/-- P2. -/
theorem witness_BatteryTimeCommand :
    let s : State :=
      { presented 0x02#8 false with
        answers := gaugeAnswers [some 0xF05F#16, some 0xFE0C#16, some 0x0709#16, some 0x0708#16] }
    let reg : GaugeReg := if -10 ≤ normalise 0xFE0C#16 then .chargeTime else .dischargeTime
    s.ph = .idle ∧ s.port = some ⟨0x02#8, 0x18, false⟩ ∧ s.regOpen = false ∧
    s.answers.gauge = [some 0xF05F#16] ++ some 0xFE0C#16 :: [some 0x0709#16] ++ some 0x0708#16 :: [] ∧
    (∀ x ∈ [some 0xF05F#16], acceptGauge s.cfg.zeroFilterAll .state x = none) ∧ 1 < s.cfg.maxAttempts ∧
    acceptGauge s.cfg.zeroFilterAll .state (some 0xFE0C#16) = some 0xFE0C#16 ∧
    (∀ x ∈ [some 0x0709#16], acceptGauge s.cfg.zeroFilterAll reg x = none) ∧
    acceptGauge s.cfg.zeroFilterAll reg (some 0x0708#16) = some 0x0708#16 := by
  intro s reg
  refine ⟨?_, ?_, ?_, ?_, ?_, ?_, ?_, ?_, ?_⟩ <;> first | exact rejectedAll (by decide) | decide
/-- Clauses: CLS of BATTERY.TIME, a GRD of BATTERY.CAPACITY. -/
theorem witness_BatteryFrame :
    isBattery .batteryTime = true ∧ (∃ t, exec .batteryTime (running .batteryTime 1) = .next t) ∧
    (running .batteryTime 2).upc ≠ 1 ∧ (running .batteryTime 1).ph ≠ .idle ∧
    (∃ t, exec .batteryCapacity (running .batteryCapacity 1) = .next t) :=
  ⟨rfl, ⟨_, rfl⟩, by decide, by decide, _, rfl⟩

/-- The values where the clauses meet: 9 and 10 for INCREASE, 1 and 2 for DECREASE. -/
theorem witness_MutationOfEachCommand :
    let s (n : Nibble) : State := { running .backlightIncrease 1 with status := ⟨false, true, true, n, true, false⟩ }
    (s 9#4).ph = .run ∧ (s 9#4).upc = 1 ∧ (s 9#4).status.brightness.toNat < 10 ∧
    1 < (s 2#4).status.brightness.toNat ∧ (10#4, Instr.backlight10) ∈ levelCommands := by decide
theorem witness_NothingToSendSkipsToFin :
    let s (n : Nibble) : State := { running .backlightIncrease 1 with status := ⟨false, true, true, n, true, false⟩ }
    (s 10#4).ph = .run ∧ (s 10#4).upc = 1 ∧ 10 ≤ (s 10#4).status.brightness.toNat ∧
    10 ≤ (s 15#4).status.brightness.toNat ∧ (s 1#4).status.brightness.toNat ≤ 1 ∧
    (s 0#4).status.brightness.toNat ≤ 1 := by decide
/-- V2.20 as LID.STATE. -/
theorem witness_ReadOnlyCommand :
    let bad : List (List Byte) := [[], [0x00#8]]
    let s : State := { presented 0x30#8 false with answers := hubAnswers (bad ++ [0x4C#8] :: []) }
    isReadOnly .lidState = true ∧ s.ph = .idle ∧ s.port = some ⟨0x30#8, 0x18, false⟩ ∧
    decodeCommand 0x30#8 = some .lidState ∧ s.hubOpen = false ∧ s.answers.hub = bad ++ [0x4C#8] :: [] ∧
    (∀ x ∈ bad, okHub x = none) ∧ bad.length < s.cfg.maxAttempts ∧ okHub [0x4C#8] = some 0x4C#8 := by decide
/-- P1. -/
theorem witness_MutatingCommandConfirmsTwice :
    let z : List Byte := [0x00#8]
    let s : State :=
      { presented 0x2B#8 false with answers := hubAnswers [z, [0x4C#8], z, [0x4C#8], [0x54#8], [0x54#8]] }
    isMutating .backlightIncrease = true ∧ s.ph = .idle ∧ s.port = some ⟨0x2B#8, 0x18, false⟩ ∧
    decodeCommand 0x2B#8 = some .backlightIncrease ∧ s.hubOpen = false ∧
    s.answers.hub = [z] ++ [0x4C#8] :: ([z] ++ [0x4C#8] :: ([] ++ [0x54#8] :: ([] ++ [0x54#8] :: []))) ∧
    (∀ x ∈ [z] ++ [z] ++ [] ++ [], okHub x = none) ∧ 1 < s.cfg.maxAttempts ∧ 0 < s.cfg.maxAttempts ∧
    okHub [0x4C#8] = some 0x4C#8 ∧ okHub [0x54#8] = some 0x54#8 ∧
    mutation .backlightIncrease (decodeStatus 0x4C#8) = some ⟨false, false, true, 10#4, false, false⟩ := by decide
/-- P3: brightness 10 with the screen off, and V2.48: brightness 1. -/
theorem witness_NothingToSendReportsTheFirstRead :
    let s : State := { presented 0x2B#8 false with answers := hubAnswers ([] ++ [0x56#8] :: []) }
    s.ph = .idle ∧ s.port = some ⟨0x2B#8, 0x18, false⟩ ∧ decodeCommand 0x2B#8 = some .backlightIncrease ∧
    s.hubOpen = false ∧ s.answers.hub = [] ++ [0x56#8] :: [] ∧ (∀ x ∈ ([] : List (List Byte)), okHub x = none) ∧
    0 < s.cfg.maxAttempts ∧ okHub [0x56#8] = some 0x56#8 ∧
    mutation .backlightIncrease (decodeStatus 0x56#8) = none ∧
    mutation .backlightDecrease (decodeStatus 0x88#8) = none := by decide
theorem witness_FailedConfirmationRestoresNothing :
    let bad : List (List Byte) := List.replicate 20 []
    let s : State := { running .systemOff 3 with answers := hubAnswers (bad ++ []) }
    isMutating .systemOff = true ∧ s.ph = .run ∧ decodeCommand s.cmd = some .systemOff ∧ (s.upc = 3 ∨ s.upc = 4) ∧
    (running .systemOff 4).upc = 4 ∧ s.pos = .start ∧ s.hubOpen = true ∧ s.answers.hub = bad ++ [] ∧
    (∀ x ∈ bad, okHub x = none) ∧ bad.length = s.cfg.maxAttempts ∧ 0 < s.cfg.maxAttempts := by decide
/-- A MUT that has something to send, of INCREASE, DECREASE, OFF and SYSTEM.OFF. -/
theorem witness_BrightnessWritten :
    (isMutating .backlightIncrease = true ∧ isMutating .backlightDecrease = true ∧ isMutating .systemOff = true) ∧
    [mutOf .backlightIncrease 0x4C#8, mutOf .backlightDecrease 0x50#8, mutOf .systemOff 0x2C#8,
     mutOf .backlightOff 0x2C#8, mutOf .backlightOn 0x2C#8, mutOf .backlight1 0x2C#8].map
        (Option.map (fun t => t.2.2.2)) = List.replicate 6 (some 2) := by decide

/-- A running SYSTEM.OFF about to send, in a state of the invariant. -/
def sending : State :=
  { running .systemOff 2 with
    rxb := 0x2C#8, status := ⟨true, false, true, 5#4, false, false⟩, answers := hubAnswers [[0x2D#8]] }

theorem sending_inv : sending.Inv where
  budget  := by decide
  argFits := by decide
  seenFit := by simp [sending, running, base, State.reset]
  attOk   := by decide
  valid   := by decide
  running := fun _ =>
    ⟨.systemOff, rfl, by decide, by decide, trivial, ⟨by simp, by simp, by simp⟩, fun _ =>
      ⟨by decide, fun h => by simp [sending, running] at h, fun _ => by decide, fun _ h => by revert h; decide⟩⟩
  result  := fun h => by cases h

/-- An idle block with a command presented, in the invariant. -/
theorem presented_inv : (presented 0x2B#8 false).Inv where
  budget  := by decide
  argFits := by decide
  seenFit := by simp [presented, base, State.reset]
  attOk   := by decide
  valid   := by decide
  running := fun h => by cases h
  result  := fun h => by cases h

theorem witness_ZeroIsNeverTransmitted :
    ∃ t, step sending = .next t ∧ t.events = sending.events ++ [.hubXfer 0x2D#8 [0x2D#8]] := ⟨_, rfl, rfl⟩
theorem witness_InvariantKeptByEveryStep :
    sending.Inv ∧ (∃ t, step sending = .next t) ∧ (presented 0x2B#8 false).Inv ∧
    (∃ t, step (presented 0x2B#8 false) = .next t) := ⟨sending_inv, ⟨_, rfl⟩, presented_inv, _, rfl⟩
theorem witness_NoStepFaultsUnderTheInvariant : sending.Inv ∧ (presented 0x2B#8 false).Inv := ⟨sending_inv, presented_inv⟩
theorem witness_EveryPolledCommandEnds :
    sending.Inv ∧ sending.ph = .run ∧ decodeCommand sending.cmd = some .systemOff ∧ needsOperand .systemOff = false :=
  ⟨sending_inv, rfl, rfl, rfl⟩
theorem witness_HubFrame :
    isHub .systemOff = true ∧ isHub .lidState = true ∧ (∃ t, exec .systemOff sending = .next t) ∧
    (∃ t, exec .lidState (running .lidState 1) = .next t) ∧ isReadOnly .lidState = true ∧ sending.upc = 2 :=
  ⟨rfl, rfl, ⟨_, rfl⟩, ⟨_, rfl⟩, rfl, rfl⟩

theorem witness_MixerPrecondition :
    let s (v : Option Nat) : State := { running .speakerLeft 0 with answers := { Answers.none with mixer := [v] } }
    needsOperand .speakerLeft = true ∧ (s none).ph = .run ∧ (s none).upc = 0 ∧ (s none).pos = .start ∧
    (drawMixer (s none)).1 = none ∧ (drawMixer (s (some 4))).1 = some (s (some 4)).cfg.mixerExpected ∧
    (drawMixer (s (some 5))).1 = some 5 ∧ 5 ≠ (s (some 5)).cfg.mixerExpected ∧
    ({ s none with pos := .mixerSetOwed } : State).pos = .mixerSetOwed ∧
    ({ s none with pos := .raiseOwed } : State).pos = .raiseOwed := by decide
theorem witness_DirectiveSourceCheck :
    let s (b : Bool) : State := { running .speakerRight 1 with answers := { Answers.none with probe := [b] } }
    needsOperand .speakerRight = true ∧ (s true).ph = .run ∧ (s true).upc = 1 ∧ (drawProbe (s true)).1 = true ∧
    (drawProbe (s false)).1 = false ∧ (s true).pos ≠ .raiseOwed ∧
    ({ s false with pos := .raiseOwed } : State).pos = .raiseOwed := by decide
theorem witness_ConfigurationRegisterOpenedAndClosed :
    needsOperand .speakerMono = true ∧ (running .speakerMono 2).ph = .run ∧ (running .speakerMono 2).upc = 2 ∧
    (running .speakerMono 4).upc = 4 ∧ (running .speakerMono 2).regOpen = true ∧
    ({ running .speakerMono 2 with regOpen := false } : State).regOpen = false := by decide
theorem witness_DirectiveReplaySteps :
    let s (v : Option Directive) : State :=
      { running .speakerMono 3 with answers := { Answers.none with fetch := [v] } }
    modeOf .speakerMono = some .mono ∧ (s none).ph = .run ∧ (s none).upc = 3 ∧ (s none).pos = .start ∧
    (drawFetch (s none)).1 = none ∧ (drawFetch (s (some dAlways))).1 = some dAlways ∧ dAlways.tag = .always ∧
    (drawFetch (s (some dMono))).1 = some dMono ∧ dMono.tag = .mono ∧
    (drawFetch (s (some dOther))).1 = some dOther ∧ dOther.tag ≠ .always ∧ dOther.tag ≠ .mono ∧
    ({ s none with pos := .directiveHeld dMono } : State).regOpen = true ∧
    ({ s none with pos := .directiveHeld dMono, regOpen := false } : State).regOpen = false := by decide
/-- V2.68 with three of the directives of V2.67. -/
theorem witness_SpeakerCommand :
    let ds : List Directive := [dAlways, dLeft, dMono]
    let s : State :=
      { presented 0x42#8 true with
        answers := { Answers.none with mixer := [some 7], probe := [true], fetch := ds.map some ++ none :: [] } }
    modeOf .speakerMono = some .mono ∧ s.ph = .idle ∧ s.port = some ⟨0x42#8, 0x18, true⟩ ∧
    decodeCommand 0x42#8 = some .speakerMono ∧ 0x18 < 2 ^ s.cfg.addrW ∧ s.regOpen = false ∧
    s.answers.mixer = some 7 :: [] ∧ s.answers.probe = true :: [] ∧ s.answers.fetch = ds.map some ++ none :: [] := by
  decide
theorem witness_SpeakerFrame :
    needsOperand .speakerLeft = true ∧ (∃ t, exec .speakerLeft (running .speakerLeft 2) = .next t) ∧
    (running .speakerLeft 2).upc ≠ 3 ∧ (running .speakerLeft 2).ph ≠ .idle := ⟨rfl, ⟨_, rfl⟩, by decide, by decide⟩

/-- Each failure, raised by a step of a running command; HSET among them. -/
theorem witness_FailureWritesOnlyTheResult :
    after (exec .systemOff { running .systemOff 2 with answers := hubAnswers [[]], pos := .delayTaken, att := 19 })
      (fun t => (t.ph, t.res.err)) = some (.done, 1#3) ∧
    after (exec .speakerLeft { running .speakerLeft 0 with pos := .raiseOwed }) (fun t => (t.ph, t.res.err)) =
      some (.done, 3#3) ∧
    after (exec .speakerLeft { running .speakerLeft 1 with pos := .raiseOwed }) (fun t => (t.ph, t.res.err)) =
      some (.done, 2#3) := by decide
theorem witness_WhichFailureWhere :
    after (exec .lidState (running .lidState 1)) (fun t => (t.ph, t.res.err)) = some (.done, 0#3) := by decide
theorem witness_MicroProgramCounterOnlyRises :
    (running .backlightIncrease 1).ph = .run ∧ mutOf .backlightIncrease 0x54#8 = some (false, false, 10#4, 5) ∧
    mutOf .backlightIncrease 0x4C#8 = some (false, false, 10#4, 2) := by decide
/-- A step that opens the hub's handle, and one that opens the register bus's. -/
theorem witness_HandlesAndConfigurationStay :
    after (step { running .lidState 0 with hubOpen := false }) (fun t => (t.hubOpen, t.events)) =
      some (true, [.opened .hub]) ∧
    after (step { running .batteryState 0 with regOpen := false }) (fun t => (t.regOpen, t.events)) =
      some (true, [.opened .reg]) := by decide
/-- The two events of the last rejected attempt, and one event. -/
theorem witness_AtMostOneEventAndTheResult :
    after (step { running .lidState 0 with answers := hubAnswers [[0x00#8]], pos := .delayTaken, att := 19 })
      (fun t => t.events.length) = some 2 := by decide
theorem witness_UnwrittenRegistersAreNotRead :
    (presented 0x2B#8 false).ph = .idle ∧ ∃ t, Reaches 2 (presented 0x2B#8 false) t := ⟨rfl, _, rfl⟩

end Sys2Proof.Tests
end

section
/-! The scope statements (00_scope): what one step adds to the event list, and when a bus handle opens. Everything rests on
`StepAdds`, which holds of every step; the rules before it say it of each micro-operation. -/

namespace Sys2Proof.Machine

/-! ### What a step may add to the event list (20_memory R77, 41_poll R177) -/

/-- A transaction of a poll: a transfer on the hub's bus, or a two-byte read of the gauge (20_memory R62, R64). -/
def Event.IsPolled (e : Event) : Prop :=
  (∃ tx rx, e = .hubXfer tx rx) ∨ ∃ addr reg v, e = .regRead addr reg 2 v

/-- Neither the opening of a bus nor the result. -/
def Event.isPlain : Event → Bool
  | .opened _ | .result _ => false
  | .hubXfer _ _ | .regRead _ _ _ _ | .regWrite _ _ _ | .delay | .mixerQuery _ | .mixerSet _ | .dirProbe _
  | .dirFetch _ => true

theorem Event.IsPolled.isPlain {e : Event} (h : e.IsPolled) : e.isPlain = true := by
  rcases h with ⟨_, _, rfl⟩ | ⟨_, _, _, rfl⟩ <;> rfl

/-- The events that a step from phase `ph` to the state `t` may add (log 1). -/
inductive StepEvents (ph : Phase) (t : State) : List Event → Prop where
  | silent : StepEvents ph t []
  | opened (b : Bus) : StepEvents ph t [.opened b]
  | plain {e : Event} (he : e.isPlain = true) : StepEvents ph t [e]
  | delivered (hd : t.ph = .done) : StepEvents ph t [.result t.res]
  | pollFailed {e : Event} (he : e.IsPolled) (hr : ph = .run) (hd : t.ph = .done) (herr : t.res.err = 1#3) :
    StepEvents ph t [e, .result t.res]

/-- `t` comes after `s` by one step's worth of events, the configuration is kept, and each handle is open exactly if it was or
its opening is what the step added (10_state R37, 20_memory R76). -/
def StepAdds (s t : State) : Prop :=
  ∃ es, StepEvents s.ph t es ∧ t.events = s.events ++ es ∧ t.cfg = s.cfg ∧
    t.hubOpen = (s.hubOpen || decide (es = [.opened .hub])) ∧
    t.regOpen = (s.regOpen || decide (es = [.opened .reg]))

/-- No parameter and no handle changes. -/
def KeepsHandles (s t : State) : Prop := t.cfg = s.cfg ∧ t.hubOpen = s.hubOpen ∧ t.regOpen = s.regOpen

section
variable {s t : State}

theorem StepAdds.of_keepsHandles {es : List Event} (hk : KeepsHandles s t) (hes : StepEvents s.ph t es)
    (he : t.events = s.events ++ es) (ho : ∀ b, es ≠ [.opened b]) : StepAdds s t := by
  obtain ⟨hcfg, hhub, hreg⟩ := hk
  exact ⟨es, hes, he, hcfg, by simp [hhub, ho], by simp [hreg, ho]⟩

theorem StepAdds.silent (hk : KeepsHandles s t) (he : t.events = s.events) : StepAdds s t :=
  .of_keepsHandles hk .silent (by simp [he]) (by simp)

theorem StepAdds.plain {e : Event} (hp : e.isPlain = true) (hk : KeepsHandles s t) (he : t.events = s.events ++ [e]) :
    StepAdds s t :=
  .of_keepsHandles hk (.plain hp) he fun b h => by cases h; cases hp

theorem StepAdds.delivered (hk : KeepsHandles s t) (hd : t.ph = .done) (he : t.events = s.events ++ [.result t.res]) :
    StepAdds s t :=
  .of_keepsHandles hk (.delivered hd) he (by simp)

theorem StepAdds.pollFailed {e : Event} (hp : e.IsPolled) (hk : KeepsHandles s t) (hr : s.ph = .run) (hd : t.ph = .done)
    (herr : t.res.err = 1#3) (he : t.events = s.events ++ [e, .result t.res]) : StepAdds s t :=
  .of_keepsHandles hk (.pollFailed hp hr hd herr) he (by simp)

end

theorem stepAdds_openBus (b : Bus) (s : State) : StepAdds s (s.openBus b) := by
  refine ⟨[.opened b], .opened b, ?_⟩
  cases b <;> simp [State.openBus]

theorem stepAdds_finish (p : Payload) (s : State) : StepAdds s (finish p s) := .delivered ⟨rfl, rfl, rfl⟩ rfl rfl

/-! ### The polls (41_poll R177) -/

theorem PollIdle.stepAdds {b : Bus} {s t : State} (h : PollIdle b s t) : StepAdds s t := by
  rcases h with ⟨-, -, rfl⟩ | ⟨-, -, rfl⟩ | ⟨-, -, rfl⟩
  · exact .plain (e := .delay) rfl ⟨rfl, rfl, rfl⟩ rfl
  · exact stepAdds_openBus b { s with att := if s.inPoll then s.att else 0 }
  · exact .delivered ⟨rfl, rfl, rfl⟩ rfl rfl

theorem stepAdds_rejected {s : State} {e : Event} (hr : s.ph = .run) (he : e.IsPolled) (a : Answers) :
    StepAdds s (rejected s a e) := by
  rcases rejected_cases s a e with ⟨-, h⟩ | ⟨-, h⟩ <;> rw [h]
  · exact .plain he.isPlain ⟨rfl, rfl, rfl⟩ rfl
  · exact .pollFailed he ⟨rfl, rfl, rfl⟩ hr rfl rfl (by simp)

theorem stepAdds_hget {s : State} (hr : s.ph = .run) : StepAdds s (hget s) := by
  rcases hget_cases s with h | ⟨-, -, b, -, h⟩ | ⟨-, -, -, h⟩
  · exact h.stepAdds
  · rw [h]; exact .plain (e := .hubXfer s.cfg.statusReq (drawHub s).1) rfl ⟨rfl, rfl, rfl⟩ rfl
  · rw [h]; exact stepAdds_rejected hr (.inl ⟨_, _, rfl⟩) _

theorem stepAdds_hset {s : State} (hr : s.ph = .run) : StepAdds s (hset s) := by
  obtain ⟨tx, -, h | ⟨-, -, -, h⟩ | ⟨-, -, -, h⟩⟩ := hset_cases s
  · exact h.stepAdds
  · rw [h]; exact .plain (e := .hubXfer tx (drawHub s).1) rfl ⟨rfl, rfl, rfl⟩ rfl
  · rw [h]; exact stepAdds_rejected (s := { s with txb := tx }) hr (.inl ⟨_, _, rfl⟩) _

theorem stepAdds_grd {s : State} (r : GaugeReg) (hr : s.ph = .run) : StepAdds s (grd r s) := by
  rcases grd_cases r s with h | ⟨-, -, raw, -, h⟩ | ⟨-, -, -, h⟩
  · exact h.stepAdds
  · rw [h]
    exact .plain (e := .regRead (gaugeAddress s.cfg) (gaugeNumber s.cfg r) 2 (drawGauge s).1) rfl ⟨rfl, rfl, rfl⟩ rfl
  · rw [h]; exact stepAdds_rejected hr (.inr ⟨_, _, _, rfl⟩) _

/-! ### The other micro-operations -/

theorem stepAdds_mix (s : State) : StepAdds s (mix s) := by
  rcases mix_cases s with ⟨-, h⟩ | ⟨-, h⟩ | ⟨-, -, -, h⟩ | ⟨-, -, -, h⟩ | ⟨-, -, n, -, -, h⟩ <;> rw [h]
  case inr.inl => exact .delivered ⟨rfl, rfl, rfl⟩ rfl rfl
  all_goals exact .plain rfl ⟨rfl, rfl, rfl⟩ rfl

theorem stepAdds_dirchk (s : State) : StepAdds s (dirchk s) := by
  rcases dirchk_cases s with ⟨-, h⟩ | ⟨-, -, h⟩ | ⟨-, -, h⟩ <;> rw [h]
  case inl => exact .delivered ⟨rfl, rfl, rfl⟩ rfl rfl
  all_goals exact .plain rfl ⟨rfl, rfl, rfl⟩ rfl

theorem stepAdds_configWrite (reg : Config → Byte) (bytes : Config → ByteSeq) (s : State) :
    StepAdds s (onBus .reg (fun u => (regWrite (reg u.cfg) (bytes u.cfg) u).advance) s) := by
  rcases configWrite_cases reg bytes s with ⟨-, h⟩ | ⟨-, h⟩ <;> rw [h]
  · exact stepAdds_openBus .reg s
  · exact .plain rfl ⟨rfl, rfl, rfl⟩ rfl

theorem stepAdds_spkReplay (mode : Tag) (s : State) : StepAdds s (spkReplay mode s) := by
  rcases spkReplay_cases mode s with ⟨d, -, -, h⟩ | ⟨d, -, -, h⟩ | ⟨-, -, h⟩ | ⟨-, d, -, -, h⟩ | ⟨-, d, -, -, h⟩ <;> rw [h]
  case inl => exact stepAdds_openBus .reg s
  all_goals exact .plain rfl ⟨rfl, rfl, rfl⟩ rfl

/-! ### Every step -/

theorem stepAdds_micro {i : Instr} {s : State} {m : State → State} (hr : s.ph = .run)
    (hm : (microList i)[s.upc]? = some m) : StepAdds s (m s) := by
  rcases micro_cases hm with ⟨-, h⟩ | ⟨-, h⟩ | ⟨r, -, h⟩ | ⟨-, h⟩ | ⟨-, -, h⟩ | ⟨-, -, h⟩ | ⟨md, -, hspk⟩
  · rw [h]; exact stepAdds_hget hr
  · rw [h]; exact stepAdds_hset hr
  · rw [h]; exact stepAdds_grd r hr
  · rw [h]; exact stepAdds_finish _ s
  · rw [h]; exact .silent ⟨rfl, rfl, rfl⟩ rfl
  · rw [h]; split <;> exact .silent ⟨rfl, rfl, rfl⟩ rfl
  · rcases hspk with ⟨-, h⟩ | ⟨-, h⟩ | ⟨-, h⟩ | ⟨-, h⟩ | ⟨-, h⟩ <;> rw [h]
    · exact stepAdds_mix s
    · exact stepAdds_dirchk s
    · exact stepAdds_configWrite Config.spkCfgReg Config.spkCfgOpen s
    · exact stepAdds_spkReplay md s
    · exact stepAdds_configWrite Config.spkCfgReg Config.spkCfgClose s

theorem stepAdds_acceptAs (i : Instr) (p : Presented) (s : State) : StepAdds s (acceptAs i p s) := by
  unfold acceptAs
  split
  · exact .delivered ⟨rfl, rfl, rfl⟩ rfl rfl
  · exact .silent ⟨rfl, rfl, rfl⟩ rfl

/-- Everything a step adds, and nothing else happens to the handles and the configuration. -/
theorem step_stepAdds {s t : State} (h : step s = .next t) : StepAdds s t := by
  rcases step_next h with ⟨rfl, -⟩ | ⟨-, p, i, -, -, rfl⟩ | ⟨-, p, -, -, rfl⟩ | ⟨hr, i, m, -, hm, rfl⟩
  · exact .silent ⟨rfl, rfl, rfl⟩ rfl
  · exact stepAdds_acceptAs i p s
  · exact .delivered ⟨rfl, rfl, rfl⟩ rfl rfl
  · exact stepAdds_micro hr hm

theorem exec_done {s : State} (i : Instr) (hp : s.ph = .done) : exec i s = .next s := by
  rw [exec_eq_runCommand]; simp [runCommand, hp]

/-! ### The statements -/

/-- Settles O54: the handles and the added events are tied by `StepAdds`. -/
theorem handlesAndConfigurationStay : Obligations.HandlesAndConfigurationStay := by
  intro s t h
  obtain ⟨es, -, he, hcfg, hhub, hreg⟩ := step_stepAdds h
  refine ⟨hcfg, fun ho => ?_, fun ho => ?_, fun hc => ?_, fun hc => ?_⟩
  · simp [hhub, ho]
  · simp [hreg, ho]
  · simp [hhub, hc, he]
  · simp [hreg, hc, he]

/-- Settles O55: one case for each kind of step in `StepEvents`. -/
theorem atMostOneEventAndTheResult : Obligations.AtMostOneEventAndTheResult := by
  intro s t h
  obtain ⟨es, hes, he, -⟩ := step_stepAdds h
  cases hes with
  | silent => exact .inl (by simpa using he)
  | opened b => exact .inr (.inl ⟨_, he, fun r hr => by cases hr⟩)
  | plain hp => exact .inr (.inl ⟨_, he, fun r hr => by subst hr; cases hp⟩)
  | delivered hd => exact .inr (.inl ⟨_, he, fun r hr => by cases hr; exact ⟨hd, rfl⟩⟩)
  | pollFailed hp hr hd herr => exact .inr (.inr ⟨_, hp, hr, hd, herr, he⟩)

/-- Settles O15, by the two laws of `step` on a word that decodes. -/
theorem stepRunsDecodedCommand : Obligations.StepRunsDecodedCommand :=
  fun _ _ => ⟨fun _ hp hport hd => step_idle hp hport hd, fun hp hd => step_run hp hd⟩

/-- Settles O19, by the quiet step and the phase split of a command's run. -/
theorem idleWaitsAndDoneStays : Obligations.IdleWaitsAndDoneStays :=
  fun _ => ⟨fun hp hport => step_quiet (.inr ⟨hp, hport⟩), fun hp => ⟨step_quiet (.inl hp), fun i => exec_done i hp⟩⟩

/-- Settles O56: reset is idle, with no event and the default budget. -/
theorem invariantAtReset : Obligations.InvariantAtReset where
  budget := by decide
  argFits := by decide
  seenFit := by simp [State.reset]
  attOk := Nat.zero_le _
  valid := by decide
  running := by simp [State.reset]
  result := by simp [State.reset]

end Sys2Proof.Machine
end

section
/-! The frames (10_state R29): what a micro-operation leaves alone in the whole machine, then family by family, and where it
leaves `UPC` (R25). The three frame statements put these rules beside the acceptance and the quiet steps. -/

namespace Sys2Proof.Machine

/-! ### What every micro-operation keeps -/

/-- `t` comes after `s` with the latched command, the port and the configuration as they were, and either goes on with `PH`
and `RES` untouched or has ended with a valid result. -/
def MicroKeeps (s t : State) : Prop :=
  (t.cmd = s.cmd ∧ t.arg = s.arg ∧ t.argv = s.argv ∧ t.port = s.port ∧ t.cfg = s.cfg) ∧
  ((t.ph = s.ph ∧ t.res = s.res) ∨ (t.ph = .done ∧ t.res.valid = true))

/-- The next `UPC` is the same one or the next. -/
def StaysOrAdvances (s t : State) : Prop := t.upc = s.upc ∨ t.upc = s.upc + 1

/-- What every micro-operation does but the MUT with nothing to send, which skips ahead in its list. -/
def MicroSteps (s t : State) : Prop := MicroKeeps s t ∧ StaysOrAdvances s t

section
variable {s t : State}

theorem MicroSteps.goesOn
    (hlatch : t.cmd = s.cmd ∧ t.arg = s.arg ∧ t.argv = s.argv ∧ t.port = s.port ∧ t.cfg = s.cfg)
    (hph : t.ph = s.ph) (hres : t.res = s.res) (hupc : StaysOrAdvances s t) : MicroSteps s t :=
  ⟨⟨hlatch, .inl ⟨hph, hres⟩⟩, hupc⟩

theorem MicroSteps.ends
    (hlatch : t.cmd = s.cmd ∧ t.arg = s.arg ∧ t.argv = s.argv ∧ t.port = s.port ∧ t.cfg = s.cfg)
    (hph : t.ph = .done) (hvalid : t.res.valid = true) (hupc : t.upc = s.upc) : MicroSteps s t :=
  ⟨⟨hlatch, .inr ⟨hph, hvalid⟩⟩, .inl hupc⟩

end

theorem PollIdle.microSteps {b : Bus} {s t : State} (h : PollIdle b s t) : MicroSteps s t := by
  rcases h with ⟨-, -, rfl⟩ | ⟨-, -, rfl⟩ | ⟨-, -, rfl⟩
  · exact .goesOn ⟨rfl, rfl, rfl, rfl, rfl⟩ rfl rfl (.inl rfl)
  · exact .goesOn (by simp) (by simp) (by simp) (.inl (by simp))
  · exact .ends ⟨rfl, rfl, rfl, rfl, rfl⟩ rfl rfl rfl

theorem microSteps_rejected (s : State) (a : Answers) (e : Event) : MicroSteps s (rejected s a e) := by
  rcases rejected_cases s a e with ⟨-, h⟩ | ⟨-, h⟩ <;> rw [h]
  · exact .goesOn ⟨rfl, rfl, rfl, rfl, rfl⟩ rfl rfl (.inl rfl)
  · exact .ends ⟨rfl, rfl, rfl, rfl, rfl⟩ rfl rfl rfl

theorem microSteps_hget (s : State) : MicroSteps s (hget s) := by
  rcases hget_cases s with h | ⟨-, -, b, -, h⟩ | ⟨-, -, -, h⟩
  · exact h.microSteps
  · rw [h]; exact .goesOn ⟨rfl, rfl, rfl, rfl, rfl⟩ rfl rfl (.inr rfl)
  · rw [h]; exact microSteps_rejected s _ _

theorem microSteps_hset (s : State) : MicroSteps s (hset s) := by
  obtain ⟨tx, -, h | ⟨-, -, -, h⟩ | ⟨-, -, -, h⟩⟩ := hset_cases s
  · exact h.microSteps
  · rw [h]; exact .goesOn ⟨rfl, rfl, rfl, rfl, rfl⟩ rfl rfl (.inr rfl)
  · rw [h]; exact microSteps_rejected { s with txb := tx } _ _

theorem microSteps_grd (r : GaugeReg) (s : State) : MicroSteps s (grd r s) := by
  rcases grd_cases r s with h | ⟨-, -, raw, -, h⟩ | ⟨-, -, -, h⟩
  · exact h.microSteps
  · rw [h]; exact .goesOn ⟨rfl, rfl, rfl, rfl, rfl⟩ rfl rfl (.inr rfl)
  · rw [h]; exact microSteps_rejected s _ _

theorem microSteps_mix (s : State) : MicroSteps s (mix s) := by
  rcases mix_cases s with ⟨-, h⟩ | ⟨-, h⟩ | ⟨-, -, -, h⟩ | ⟨-, -, -, h⟩ | ⟨-, -, n, -, -, h⟩ <;> rw [h]
  case inr.inl => exact .ends ⟨rfl, rfl, rfl, rfl, rfl⟩ rfl rfl rfl
  all_goals exact .goesOn ⟨rfl, rfl, rfl, rfl, rfl⟩ rfl rfl (by simp [StaysOrAdvances])

theorem microSteps_dirchk (s : State) : MicroSteps s (dirchk s) := by
  rcases dirchk_cases s with ⟨-, h⟩ | ⟨-, -, h⟩ | ⟨-, -, h⟩ <;> rw [h]
  case inl => exact .ends ⟨rfl, rfl, rfl, rfl, rfl⟩ rfl rfl rfl
  all_goals exact .goesOn ⟨rfl, rfl, rfl, rfl, rfl⟩ rfl rfl (by simp [StaysOrAdvances])

theorem microSteps_configWrite (reg : Config → Byte) (bytes : Config → ByteSeq) (s : State) :
    MicroSteps s (onBus .reg (fun u => (regWrite (reg u.cfg) (bytes u.cfg) u).advance) s) := by
  rcases configWrite_cases reg bytes s with ⟨-, h⟩ | ⟨-, h⟩ <;> rw [h]
  · exact .goesOn ⟨rfl, rfl, rfl, rfl, rfl⟩ rfl rfl (.inl rfl)
  · exact .goesOn ⟨rfl, rfl, rfl, rfl, rfl⟩ rfl rfl (.inr rfl)

theorem microSteps_spkReplay (mode : Tag) (s : State) : MicroSteps s (spkReplay mode s) := by
  rcases spkReplay_cases mode s with ⟨d, -, -, h⟩ | ⟨d, -, -, h⟩ | ⟨-, -, h⟩ | ⟨-, d, -, -, h⟩ | ⟨-, d, -, -, h⟩ <;> rw [h]
  all_goals exact .goesOn ⟨rfl, rfl, rfl, rfl, rfl⟩ rfl rfl (by simp [StaysOrAdvances])

theorem microKeeps_micro {i : Instr} {s : State} {m : State → State} (hm : (microList i)[s.upc]? = some m) :
    MicroKeeps s (m s) := by
  rcases micro_cases hm with ⟨-, h⟩ | ⟨-, h⟩ | ⟨r, -, h⟩ | ⟨-, h⟩ | ⟨-, -, h⟩ | ⟨-, -, h⟩ | ⟨md, -, hspk⟩
  · rw [h]; exact (microSteps_hget s).1
  · rw [h]; exact (microSteps_hset s).1
  · rw [h]; exact (microSteps_grd r s).1
  · rw [h]; exact ⟨⟨rfl, rfl, rfl, rfl, rfl⟩, .inr ⟨rfl, rfl⟩⟩
  · rw [h]; exact ⟨⟨rfl, rfl, rfl, rfl, rfl⟩, .inl ⟨rfl, rfl⟩⟩
  · rw [h]; split <;> exact ⟨⟨rfl, rfl, rfl, rfl, rfl⟩, .inl ⟨rfl, rfl⟩⟩
  · rcases hspk with ⟨-, h⟩ | ⟨-, h⟩ | ⟨-, h⟩ | ⟨-, h⟩ | ⟨-, h⟩ <;> rw [h]
    · exact (microSteps_mix s).1
    · exact (microSteps_dirchk s).1
    · exact (microSteps_configWrite Config.spkCfgReg Config.spkCfgOpen s).1
    · exact (microSteps_spkReplay md s).1
    · exact (microSteps_configWrite Config.spkCfgReg Config.spkCfgClose s).1

/-- The part of the frame that is the same for all 24 commands. -/
theorem exec_frame {i : Instr} {s t : State} (h : exec i s = .next t) :
    t.cfg = s.cfg ∧ (s.ph ≠ .idle → t.cmd = s.cmd ∧ t.arg = s.arg ∧ t.argv = s.argv ∧ t.port = s.port) ∧
    (t.ph ≠ .done → t.res = s.res) := by
  rcases exec_next h with ⟨hp, p, -, rfl⟩ | ⟨-, -, rfl⟩ | ⟨-, m, hm, rfl⟩ | ⟨-, rfl⟩
  · rw [acceptAs_eq]
    exact ⟨rfl, fun hn => absurd hp hn, by cases needsOperand i && !p.argv <;> simp⟩
  · exact ⟨rfl, fun _ => ⟨rfl, rfl, rfl, rfl⟩, fun _ => rfl⟩
  · obtain ⟨⟨hcmd, harg, hargv, hport, hcfg⟩, hph⟩ := microKeeps_micro hm
    refine ⟨hcfg, fun _ => ⟨hcmd, harg, hargv, hport⟩, fun hd => ?_⟩
    rcases hph with ⟨-, hres⟩ | ⟨hdone, -⟩
    · exact hres
    · exact absurd hdone hd
  · exact ⟨rfl, fun _ => ⟨rfl, rfl, rfl, rfl⟩, fun _ => rfl⟩

/-! ### Which family has which micro-operation -/

section
variable {i : Instr}

theorem not_isHub_of_isBattery : isBattery i = true → isHub i = false := by cases i <;> decide
theorem not_isBattery_of_isHub : isHub i = true → isBattery i = false := by cases i <;> decide
theorem not_isMutating_of_isBattery : isBattery i = true → isMutating i = false := by cases i <;> decide
theorem not_isReadOnly_of_isMutating : isMutating i = true → isReadOnly i = false := by cases i <;> decide
theorem modeOf_of_isBattery : isBattery i = true → modeOf i = none := by cases i <;> decide
theorem modeOf_of_isHub : isHub i = true → modeOf i = none := by cases i <;> decide
theorem isHub_of_isMutating (h : isMutating i = true) : isHub i = true := by simp [isHub, h]

end

/-- Which gauge register is read by which command where (42_battery R192 to R194). -/
theorem grdAt_cases {i : Instr} {k : Nat} {d : Direction} {r : GaugeReg} (h : grdAt i k d = some r) :
    ((i = .batteryState ∨ i = .batteryTime) ∧ k = 0 ∧ r = .state) ∨
    (i = .batteryCapacity ∧ k = 0 ∧ r = .capacity) ∨ (i = .batteryTime ∧ k = 2 ∧ r = timeRegister d) := by
  cases i <;> simp only [grdAt, reduceCtorEq, Option.ite_none_right_eq_some, Option.some.injEq] at h
  · exact .inl ⟨.inl rfl, h.1, h.2.symm⟩
  · exact .inr (.inl ⟨rfl, h.1, h.2.symm⟩)
  · split at h
    · next hk => exact .inl ⟨.inr rfl, hk, by simpa using h.symm⟩
    · simp only [Option.ite_none_right_eq_some, Option.some.injEq] at h
      exact .inr (.inr ⟨rfl, h.1, h.2.symm⟩)

theorem isBattery_of_grdAt {i : Instr} {k : Nat} {d : Direction} {r : GaugeReg} (h : grdAt i k d = some r) :
    isBattery i = true := by
  rcases grdAt_cases h with ⟨rfl | rfl, -⟩ | ⟨rfl, -⟩ | ⟨rfl, -⟩ <;> rfl

theorem isHub_of_hgetAt {i : Instr} {k : Nat} (h : hgetAt i k = true) :
    isHub i = true ∧ (k = 0 ∨ k = 3 ∨ k = 4) := by
  simp only [hgetAt, Bool.or_eq_true, Bool.and_eq_true, decide_eq_true_eq] at h
  rcases h with ⟨hi, hk⟩ | ⟨hi, hk⟩
  · exact ⟨hi, .inl hk⟩
  · exact ⟨isHub_of_isMutating hi, .inr hk⟩

theorem isMutating_of_hsetAt {i : Instr} {k : Nat} (h : hsetAt i k = true) : isMutating i = true ∧ k = 2 := by
  simpa [hsetAt] using h

end Sys2Proof.Machine
end

section
/-! The frame statements, O35, O44 and O50, and the way of `UPC`, O53. -/

namespace Sys2Proof.Machine

/-! ### Battery commands -/

/-- What a step of a battery command leaves alone in every case (42_battery R192 to R194). -/
def BatteryKeeps (s t : State) : Prop :=
  (t.status = s.status ∧ t.rxb = s.rxb ∧ t.txb = s.txb ∧ t.applied = s.applied ∧ t.hubOpen = s.hubOpen) ∧
  t.answers.hub = s.answers.hub ∧ t.answers.mixer = s.answers.mixer ∧ t.answers.probe = s.answers.probe ∧
  t.answers.fetch = s.answers.fetch

theorem batteryKeeps_grd (r : GaugeReg) (s : State) :
    BatteryKeeps s (grd r s) ∧ (grd r s).norm = s.norm ∧ (grd r s).dir = s.dir := by
  rcases grd_cases r s with h | ⟨-, -, raw, -, h⟩ | ⟨-, -, -, h⟩
  · obtain ⟨hstatus, hrxb, htxb, -, hnorm, hdir, happlied, -, -, -, -, -, -, hanswers, hhub, -⟩ := h.frame
    exact ⟨⟨⟨hstatus, hrxb, htxb, happlied, hhub rfl⟩, by simp [hanswers]⟩, hnorm, hdir⟩
  · rw [h]; exact ⟨⟨⟨rfl, rfl, rfl, rfl, rfl⟩, drawGauge_queues s⟩, rfl, rfl⟩
  · rw [h]
    rcases rejected_cases s (drawGauge s).2.answers
      (.regRead (gaugeAddress s.cfg) (gaugeNumber s.cfg r) 2 (drawGauge s).1) with ⟨-, e⟩ | ⟨-, e⟩ <;> rw [e]
    all_goals exact ⟨⟨⟨rfl, rfl, rfl, rfl, rfl⟩, drawGauge_queues s⟩, rfl, rfl⟩

theorem batteryKeeps_micro {i : Instr} {s : State} {m : State → State} (hi : isBattery i = true)
    (hm : (microList i)[s.upc]? = some m) :
    BatteryKeeps s (m s) ∧ (i = .batteryCapacity ∨ s.upc ≠ 1 → (m s).norm = s.norm ∧ (m s).dir = s.dir) := by
  rcases micro_cases hm with ⟨hg, -⟩ | ⟨hs, -⟩ | ⟨r, -, h⟩ | ⟨-, h⟩ | ⟨hc, hu, h⟩ | ⟨hmut, -⟩ | ⟨md, hmd, -⟩
  · exact absurd (isHub_of_hgetAt hg).1 (by simp [not_isHub_of_isBattery hi])
  · exact absurd (isMutating_of_hsetAt hs).1 (by simp [not_isMutating_of_isBattery hi])
  · rw [h]; exact ⟨(batteryKeeps_grd r s).1, fun _ => (batteryKeeps_grd r s).2⟩
  · rw [h]; exact ⟨⟨⟨rfl, rfl, rfl, rfl, rfl⟩, rfl, rfl, rfl, rfl⟩, fun _ => ⟨rfl, rfl⟩⟩
  · rw [h]
    refine ⟨⟨⟨rfl, rfl, rfl, rfl, rfl⟩, rfl, rfl, rfl, rfl⟩, fun hk => ?_⟩
    rcases hk with rfl | hk
    · simp at hc
    · exact absurd hu hk
  · simp [not_isMutating_of_isBattery hi] at hmut
  · simp [modeOf_of_isBattery hi] at hmd

/-- Settles O35: the gauge read and the classification by `batteryKeeps_micro`, the rest by `exec_frame`. -/
theorem batteryFrame : Obligations.BatteryFrame := by
  intro i s t hi h
  have hk : BatteryKeeps s t ∧ (i = .batteryCapacity ∨ s.upc ≠ 1 → t.norm = s.norm ∧ t.dir = s.dir) := by
    rcases exec_next h with ⟨-, p, -, rfl⟩ | ⟨-, -, rfl⟩ | ⟨-, m, hm, rfl⟩ | ⟨-, rfl⟩
    · rw [acceptAs_eq]; exact ⟨⟨⟨rfl, rfl, rfl, rfl, rfl⟩, rfl, rfl, rfl, rfl⟩, fun _ => ⟨rfl, rfl⟩⟩
    · exact ⟨⟨⟨rfl, rfl, rfl, rfl, rfl⟩, rfl, rfl, rfl, rfl⟩, fun _ => ⟨rfl, rfl⟩⟩
    · exact batteryKeeps_micro hi hm
    · exact ⟨⟨⟨rfl, rfl, rfl, rfl, rfl⟩, rfl, rfl, rfl, rfl⟩, fun _ => ⟨rfl, rfl⟩⟩
  obtain ⟨⟨⟨hstatus, hrxb, htxb, happlied, hhub⟩, hqueues⟩, hdir⟩ := hk
  obtain ⟨hcfg, hlatch, hres⟩ := exec_frame h
  exact ⟨hstatus, hrxb, htxb, happlied, hhub, hcfg, hlatch, fun hc => hdir (.inl hc), fun hu => hdir (.inr hu), hres,
    hqueues⟩

/-! ### Hub commands -/

/-- What a step of a hub command leaves alone in every case (43_hub_commands R211, R213 to R221). -/
def HubKeeps (s t : State) : Prop :=
  (t.raw = s.raw ∧ t.norm = s.norm ∧ t.dir = s.dir ∧ t.applied = s.applied ∧ t.regOpen = s.regOpen) ∧
  t.answers.gauge = s.answers.gauge ∧ t.answers.mixer = s.answers.mixer ∧ t.answers.probe = s.answers.probe ∧
  t.answers.fetch = s.answers.fetch

theorem PollIdle.hubKeeps {s t : State} (h : PollIdle .hub s t) : HubKeeps s t := by
  obtain ⟨-, -, -, hraw, hnorm, hdir, happlied, -, -, -, -, -, -, hanswers, -, hreg, -⟩ := h.frame
  exact ⟨⟨hraw, hnorm, hdir, happlied, hreg rfl⟩, by simp [hanswers]⟩

theorem hubKeeps_rejected (s : State) (e : Event) :
    HubKeeps s (rejected s (drawHub s).2.answers e) := by
  rcases rejected_cases s (drawHub s).2.answers e with ⟨-, h⟩ | ⟨-, h⟩ <;> rw [h] <;>
    exact ⟨⟨rfl, rfl, rfl, rfl, rfl⟩, drawHub_queues s⟩

theorem hubKeeps_hget (s : State) : HubKeeps s (hget s) ∧ (hget s).txb = s.txb := by
  rcases hget_cases s with h | ⟨-, -, b, -, h⟩ | ⟨-, -, -, h⟩
  · obtain ⟨-, -, htxb, -⟩ := h.frame
    exact ⟨h.hubKeeps, htxb⟩
  · rw [h]; exact ⟨⟨⟨rfl, rfl, rfl, rfl, rfl⟩, drawHub_queues s⟩, rfl⟩
  · rw [h]
    obtain ⟨-, -, htxb, -⟩ := rejected_frame s (drawHub s).2.answers (.hubXfer s.cfg.statusReq (drawHub s).1)
    exact ⟨hubKeeps_rejected s _, htxb⟩

theorem hubKeeps_hset (s : State) : HubKeeps s (hset s) ∧ (hset s).rxb = s.rxb ∧ (hset s).status = s.status := by
  obtain ⟨tx, -, h | ⟨-, -, -, h⟩ | ⟨-, -, -, h⟩⟩ := hset_cases s
  · obtain ⟨hstatus, hrxb, -⟩ := h.frame
    exact ⟨h.hubKeeps, hrxb, hstatus⟩
  · rw [h]; exact ⟨⟨⟨rfl, rfl, rfl, rfl, rfl⟩, drawHub_queues s⟩, rfl, rfl⟩
  · rw [h]
    obtain ⟨hstatus, hrxb, -⟩ := rejected_frame { s with txb := tx } (drawHub s).2.answers (.hubXfer tx (drawHub s).1)
    have hd := (drawHub_congr (show ({ s with txb := tx } : State).answers = s.answers from rfl)).2
    exact ⟨hd ▸ hubKeeps_rejected { s with txb := tx } _, hrxb, hstatus⟩

theorem hubKeeps_micro {i : Instr} {s : State} {m : State → State} (hi : isHub i = true)
    (hm : (microList i)[s.upc]? = some m) :
    HubKeeps s (m s) ∧ (isReadOnly i = true ∨ s.upc ≠ 2 → (m s).txb = s.txb) ∧
    (s.upc = 1 ∨ s.upc = 2 → (m s).rxb = s.rxb) ∧ (s.upc = 2 → (m s).status = s.status) := by
  rcases micro_cases hm with ⟨hg, h⟩ | ⟨hs, h⟩ | ⟨r, hr, -⟩ | ⟨-, h⟩ | ⟨hc, -⟩ | ⟨-, hu, h⟩ | ⟨md, hmd, -⟩
  · rw [h]
    have hu := (isHub_of_hgetAt hg).2
    exact ⟨(hubKeeps_hget s).1, fun _ => (hubKeeps_hget s).2, fun _ => by omega, fun _ => by omega⟩
  · rw [h]
    obtain ⟨hmut, hu⟩ := isMutating_of_hsetAt hs
    obtain ⟨hk, hrxb, hstatus⟩ := hubKeeps_hset s
    exact ⟨hk, fun ho => by simp [not_isReadOnly_of_isMutating hmut, hu] at ho, fun _ => hrxb, fun _ => hstatus⟩
  · simp [not_isHub_of_isBattery (isBattery_of_grdAt hr)] at hi
  · rw [h]; exact ⟨⟨⟨rfl, rfl, rfl, rfl, rfl⟩, rfl, rfl, rfl, rfl⟩, fun _ => rfl, fun _ => rfl, fun _ => rfl⟩
  · rcases hc with rfl | rfl <;> cases hi
  · rw [h]
    split
    all_goals
      exact ⟨⟨⟨rfl, rfl, rfl, rfl, rfl⟩, rfl, rfl, rfl, rfl⟩, fun _ => rfl, fun _ => rfl, fun h2 => by omega⟩
  · simp [modeOf_of_isHub hi] at hmd

/-- Settles O44: the transfers and the mutation by `hubKeeps_micro`, the rest by `exec_frame`. -/
theorem hubFrame : Obligations.HubFrame := by
  intro i s t hi h
  have hk : HubKeeps s t ∧ (isReadOnly i = true ∨ s.upc ≠ 2 → t.txb = s.txb) ∧
      (s.upc = 1 ∨ s.upc = 2 → t.rxb = s.rxb) ∧ (s.upc = 2 → t.status = s.status) := by
    rcases exec_next h with ⟨-, p, -, rfl⟩ | ⟨-, -, rfl⟩ | ⟨-, m, hm, rfl⟩ | ⟨-, rfl⟩
    case inr.inr.inl => exact hubKeeps_micro hi hm
    case inl => rw [acceptAs_eq]; exact ⟨⟨⟨rfl, rfl, rfl, rfl, rfl⟩, rfl, rfl, rfl, rfl⟩, by simp⟩
    all_goals exact ⟨⟨⟨rfl, rfl, rfl, rfl, rfl⟩, rfl, rfl, rfl, rfl⟩, by simp⟩
  obtain ⟨⟨⟨hraw, hnorm, hdir, happlied, hreg⟩, hqueues⟩, htxb, hrxb, hstatus⟩ := hk
  obtain ⟨hcfg, hlatch, hres⟩ := exec_frame h
  exact ⟨hraw, hnorm, hdir, happlied, hreg, hcfg, hlatch, fun ho => htxb (.inl ho), fun hu => htxb (.inr hu), hrxb,
    hstatus, hres, hqueues⟩

/-! ### Speaker commands -/

/-- What a step of a speaker command leaves alone in every case (44_speaker R252). -/
def SpeakerKeeps (s t : State) : Prop :=
  (t.status = s.status ∧ t.rxb = s.rxb ∧ t.txb = s.txb ∧ t.raw = s.raw ∧ t.norm = s.norm ∧ t.dir = s.dir ∧
    t.att = s.att ∧ t.hubOpen = s.hubOpen) ∧
  t.answers.hub = s.answers.hub ∧ t.answers.gauge = s.answers.gauge

theorem speakerKeeps_mix (s : State) : SpeakerKeeps s (mix s) ∧ (mix s).applied = s.applied := by
  rcases mix_cases s with ⟨-, h⟩ | ⟨-, h⟩ | ⟨-, -, -, h⟩ | ⟨-, -, -, h⟩ | ⟨-, -, n, -, -, h⟩ <;> rw [h]
  case inl | inr.inl => exact ⟨⟨⟨rfl, rfl, rfl, rfl, rfl, rfl, rfl, rfl⟩, rfl, rfl⟩, rfl⟩
  all_goals exact ⟨⟨⟨rfl, rfl, rfl, rfl, rfl, rfl, rfl, rfl⟩, drawMixer_queues s⟩, rfl⟩

theorem speakerKeeps_dirchk (s : State) : SpeakerKeeps s (dirchk s) ∧ (dirchk s).applied = s.applied := by
  rcases dirchk_cases s with ⟨-, h⟩ | ⟨-, -, h⟩ | ⟨-, -, h⟩ <;> rw [h]
  case inl => exact ⟨⟨⟨rfl, rfl, rfl, rfl, rfl, rfl, rfl, rfl⟩, rfl, rfl⟩, rfl⟩
  all_goals exact ⟨⟨⟨rfl, rfl, rfl, rfl, rfl, rfl, rfl, rfl⟩, drawProbe_queues s⟩, rfl⟩

theorem speakerKeeps_configWrite (reg : Config → Byte) (bytes : Config → ByteSeq) (s : State) :
    SpeakerKeeps s (onBus .reg (fun u => (regWrite (reg u.cfg) (bytes u.cfg) u).advance) s) ∧
    (onBus .reg (fun u => (regWrite (reg u.cfg) (bytes u.cfg) u).advance) s).applied = s.applied := by
  rcases configWrite_cases reg bytes s with ⟨-, h⟩ | ⟨-, h⟩ <;> rw [h] <;>
    exact ⟨⟨⟨rfl, rfl, rfl, rfl, rfl, rfl, rfl, rfl⟩, rfl, rfl⟩, rfl⟩

theorem speakerKeeps_spkReplay (mode : Tag) (s : State) :
    SpeakerKeeps s (spkReplay mode s) ∧
    ((spkReplay mode s).applied = s.applied ∨ (spkReplay mode s).applied = s.applied + 1) := by
  rcases spkReplay_cases mode s with ⟨d, -, -, h⟩ | ⟨d, -, -, h⟩ | ⟨-, -, h⟩ | ⟨-, d, -, -, h⟩ | ⟨-, d, -, -, h⟩ <;> rw [h]
  case inl => exact ⟨⟨⟨rfl, rfl, rfl, rfl, rfl, rfl, rfl, rfl⟩, rfl, rfl⟩, .inl rfl⟩
  case inr.inl => exact ⟨⟨⟨rfl, rfl, rfl, rfl, rfl, rfl, rfl, rfl⟩, rfl, rfl⟩, .inr rfl⟩
  all_goals exact ⟨⟨⟨rfl, rfl, rfl, rfl, rfl, rfl, rfl, rfl⟩, drawFetch_queues s⟩, .inl rfl⟩

theorem speakerKeeps_micro {i : Instr} {s : State} {m : State → State} (hi : needsOperand i = true)
    (hm : (microList i)[s.upc]? = some m) :
    SpeakerKeeps s (m s) ∧ ((m s).applied = s.applied ∨ (s.upc = 3 ∧ (m s).applied = s.applied + 1)) := by
  obtain ⟨mode, hmode⟩ := (needsOperand_iff_mode i).1 hi
  rcases micro_cases hm with ⟨hg, -⟩ | ⟨hs, -⟩ | ⟨r, hr, -⟩ | ⟨-, h⟩ | ⟨hc, -⟩ | ⟨hmut, -⟩ | ⟨md, -, hspk⟩
  · simp [modeOf_of_isHub (isHub_of_hgetAt hg).1] at hmode
  · simp [modeOf_of_isHub (isHub_of_isMutating (isMutating_of_hsetAt hs).1)] at hmode
  · simp [modeOf_of_isBattery (isBattery_of_grdAt hr)] at hmode
  · rw [h]; exact ⟨⟨⟨rfl, rfl, rfl, rfl, rfl, rfl, rfl, rfl⟩, rfl, rfl⟩, .inl rfl⟩
  · rcases hc with rfl | rfl <;> cases hi
  · simp [modeOf_of_isHub (isHub_of_isMutating hmut)] at hmode
  · rcases hspk with ⟨-, h⟩ | ⟨-, h⟩ | ⟨-, h⟩ | ⟨hu, h⟩ | ⟨-, h⟩ <;> rw [h]
    · exact (speakerKeeps_mix s).imp_right .inl
    · exact (speakerKeeps_dirchk s).imp_right .inl
    · exact (speakerKeeps_configWrite Config.spkCfgReg Config.spkCfgOpen s).imp_right .inl
    · exact (speakerKeeps_spkReplay md s).imp_right (Or.imp_right fun ha => ⟨hu, ha⟩)
    · exact (speakerKeeps_configWrite Config.spkCfgReg Config.spkCfgClose s).imp_right .inl

/-- Settles O50: the micro-operations by `speakerKeeps_micro`, the rest by `exec_frame`. -/
theorem speakerFrame : Obligations.SpeakerFrame := by
  intro i s t hi h
  have hk : SpeakerKeeps s t ∧ (t.applied = s.applied ∨ (s.upc = 3 ∧ t.applied = s.applied + 1)) := by
    rcases exec_next h with ⟨-, p, -, rfl⟩ | ⟨-, -, rfl⟩ | ⟨-, m, hm, rfl⟩ | ⟨-, rfl⟩
    case inr.inr.inl => exact speakerKeeps_micro hi hm
    case inl => rw [acceptAs_eq]; exact ⟨⟨⟨rfl, rfl, rfl, rfl, rfl, rfl, rfl, rfl⟩, rfl, rfl⟩, .inl rfl⟩
    all_goals exact ⟨⟨⟨rfl, rfl, rfl, rfl, rfl, rfl, rfl, rfl⟩, rfl, rfl⟩, .inl rfl⟩
  obtain ⟨⟨⟨hstatus, hrxb, htxb, hraw, hnorm, hdir, hatt, hhub⟩, hqueues⟩, happlied⟩ := hk
  obtain ⟨hcfg, hlatch, hres⟩ := exec_frame h
  exact ⟨hstatus, hrxb, htxb, hraw, hnorm, hdir, hatt, hhub, hcfg, hlatch, fun hu => by omega, by omega, hres, hqueues⟩

/-! ### The way of `UPC` (10_state R25) -/

theorem finIndex_of_isMutating {i : Instr} : isMutating i = true → finIndex i = 5 := by cases i <;> decide

theorem finIndex_of_modeOf {i : Instr} {md : Tag} : modeOf i = some md → finIndex i = 5 := by
  cases i <;> simp [modeOf, finIndex]

theorem finIndex_pos (i : Instr) : 0 < finIndex i := by cases i <;> decide

/-- A poll never stands at the end of a command's list. -/
theorem lt_finIndex_of_pollsAt {i : Instr} {k : Nat} {d : Direction} (h : pollsAt i k d = true) : k < finIndex i := by
  simp only [pollsAt, Bool.or_eq_true] at h
  rcases h with (h | h) | h
  · simp only [hgetAt, Bool.or_eq_true, Bool.and_eq_true, decide_eq_true_eq] at h
    rcases h with ⟨-, rfl⟩ | ⟨hmut, hk⟩
    · exact finIndex_pos i
    · rw [finIndex_of_isMutating hmut]; omega
  · obtain ⟨hmut, rfl⟩ := isMutating_of_hsetAt h
    simp [finIndex_of_isMutating hmut]
  · obtain ⟨r, hr⟩ := Option.isSome_iff_exists.1 h
    rcases grdAt_cases hr with ⟨rfl | rfl, rfl, -⟩ | ⟨rfl, rfl, -⟩ | ⟨rfl, rfl, -⟩ <;> simp [finIndex]

theorem pollsAt_of_hgetAt {i : Instr} {k : Nat} (d : Direction) (h : hgetAt i k = true) : pollsAt i k d = true := by
  simp [pollsAt, h]

theorem pollsAt_of_hsetAt {i : Instr} {k : Nat} (d : Direction) (h : hsetAt i k = true) : pollsAt i k d = true := by
  simp [pollsAt, h]

theorem pollsAt_of_grdAt {i : Instr} {k : Nat} {d : Direction} {r : GaugeReg} (h : grdAt i k d = some r) :
    pollsAt i k d = true := by
  simp [pollsAt, h]

/-- Only the two commands that step the level can find nothing to send. -/
theorem mutation_eq_none {i : Instr} {h : HubStatus} (hi : isMutating i = true) (hn : mutation i h = none) :
    i = .backlightIncrease ∨ i = .backlightDecrease := by
  cases i <;> simp [isMutating, mutation] at hi hn ⊢

/-- Before FIN a micro-operation keeps `UPC`, raises it by one, or skips from MUT to FIN; FIN keeps it. -/
theorem upc_micro {i : Instr} {s : State} {m : State → State} (hm : (microList i)[s.upc]? = some m) :
    (s.upc < finIndex i ∧ StaysOrAdvances s (m s)) ∨ (s.upc = finIndex i ∧ (m s).upc = s.upc) ∨
    ((m s).upc = 5 ∧ s.upc = 1 ∧ isMutating i = true ∧ (i = .backlightIncrease ∨ i = .backlightDecrease)) := by
  rcases micro_cases hm with ⟨hg, h⟩ | ⟨hs, h⟩ | ⟨r, hr, h⟩ | ⟨hf, h⟩ | ⟨hc, hu, h⟩ | ⟨hmut, hu, h⟩ | ⟨md, hmd, hspk⟩
  · rw [h]; exact .inl ⟨lt_finIndex_of_pollsAt (pollsAt_of_hgetAt s.dir hg), (microSteps_hget s).2⟩
  · rw [h]; exact .inl ⟨lt_finIndex_of_pollsAt (pollsAt_of_hsetAt s.dir hs), (microSteps_hset s).2⟩
  · rw [h]; exact .inl ⟨lt_finIndex_of_pollsAt (pollsAt_of_grdAt hr), (microSteps_grd r s).2⟩
  · rw [h]; exact .inr (.inl ⟨hf, rfl⟩)
  · rw [h]; refine .inl ⟨?_, .inr (by simp [hu])⟩
    rcases hc with rfl | rfl <;> simp [hu, finIndex]
  · rw [h]
    cases hn : mutation i s.status with
    | some h' => exact .inl ⟨by simp [hu, finIndex_of_isMutating hmut], .inr (by simp [hu])⟩
    | none => exact .inr (.inr ⟨rfl, hu, hmut, mutation_eq_none hmut hn⟩)
  · left
    rw [finIndex_of_modeOf hmd]
    rcases hspk with ⟨hu, h⟩ | ⟨hu, h⟩ | ⟨hu, h⟩ | ⟨hu, h⟩ | ⟨hu, h⟩ <;> rw [h] <;> refine ⟨by omega, ?_⟩
    · exact (microSteps_mix s).2
    · exact (microSteps_dirchk s).2
    · exact (microSteps_configWrite Config.spkCfgReg Config.spkCfgOpen s).2
    · exact (microSteps_spkReplay md s).2
    · exact (microSteps_configWrite Config.spkCfgReg Config.spkCfgClose s).2

theorem upc_micro_le {i : Instr} {s : State} {m : State → State} (hm : (microList i)[s.upc]? = some m) :
    (m s).upc ≤ finIndex i := by
  rcases upc_micro hm with ⟨hlt, hupc | hupc⟩ | ⟨hf, hupc⟩ | ⟨hupc, -, hmut, -⟩
  · omega
  · omega
  · omega
  · rw [finIndex_of_isMutating hmut, hupc]

/-- Settles O53, by the three ways of `upc_micro`. -/
theorem microProgramCounterOnlyRises : Obligations.MicroProgramCounterOnlyRises := by
  intro i s t hr h
  rcases exec_next h with ⟨hp, -⟩ | ⟨hp, -⟩ | ⟨-, m, hm, rfl⟩ | ⟨hp, -⟩
  case inr.inr.inl =>
    refine ⟨?_, upc_micro_le hm⟩
    rcases upc_micro hm with ⟨-, hupc | hupc⟩ | ⟨-, hupc⟩ | ⟨hupc, hu, -, hi⟩
    · exact .inl hupc
    · exact .inr (.inl hupc)
    · exact .inl hupc
    · exact .inr (.inr ⟨hupc, hu, hi⟩)
  all_goals rw [hr] at hp; cases hp

end Sys2Proof.Machine
end

section
/-! Reset, acceptance and the steps of a poll that are not attempts: O13, O14, O16, O20, O21. -/

namespace Sys2Proof.Machine

/-- Settles O13: the reset state is written out. -/
theorem resetValues : Obligations.ResetValues := ⟨rfl, rfl, rfl, rfl, rfl, rfl, rfl, rfl⟩

/-- Settles O14, by the three phases. -/
theorem hostResetIsReset : Obligations.HostResetIsReset := by
  intro s
  cases hp : s.ph <;> simp [hostReset, hp]

/-- Settles O16: the acceptance writes what `acceptAs_eq` lists, the check passes, and the operand fits. -/
theorem acceptanceStartsTheCommand : Obligations.AcceptanceStartsTheCommand := by
  intro s p i hp hport harg hd hv
  have hcheck : (needsOperand i && !p.argv) = false := by
    cases hn : needsOperand i with
    | false => rfl
    | true => simp [hv hn]
  rw [exec_idle hp hport, acceptAs_eq, hcheck, encode_of_decodeCommand hd, latchArg_of_lt harg]
  rfl

/-- The idle block rejects a presented reserved word (30_encoding R108 (a)). -/
theorem step_reserved {s : State} {p : Presented} (hp : s.ph = .idle) (hport : s.port = some p)
    (hd : decodeCommand p.cmd = none) : step s = .next (acceptReserved p s) := by
  simp [step, currentWord, hp, hport, hd, reservedStep]

/-- Every polling micro-operation is HGET, HSET or a GRD, standing in the command's list at that index. -/
theorem micro_of_pollsAt {i : Instr} {s : State} (h : pollsAt i s.upc s.dir = true) :
    ∃ m, (microList i)[s.upc]? = some m ∧ (m s = hget s ∨ m s = hset s ∨ ∃ r, m s = grd r s) := by
  simp only [pollsAt, Bool.or_eq_true] at h
  rcases h with (h | h) | h
  · exact ⟨hget, microList_hget h, .inl rfl⟩
  · exact ⟨hset, microList_hset h, .inr (.inl rfl)⟩
  · obtain ⟨r, hr⟩ := Option.isSome_iff_exists.1 h
    obtain ⟨m, hm, he⟩ := microList_grd hr
    exact ⟨m, hm, .inr (.inr ⟨r, he⟩)⟩

/-- Settles O20, by the delay law of each of the three polls. -/
theorem delayBeforeEveryRetry : Obligations.DelayBeforeEveryRetry := by
  intro i s hr hpoll hpos hlt
  obtain ⟨m, hm, h⟩ := micro_of_pollsAt hpoll
  rw [exec_run hr hm]
  rcases h with h | h | ⟨r, h⟩ <;> rw [h]
  · rw [hget_delay hpos hlt]
  · rw [hset_delay hpos hlt]
  · rw [grd_delay r hpos hlt]

/-- The first step of a poll on a closed bus opens it. -/
theorem pollStep_opens {α : Type} (b : Bus) (op : State → Option α × State) (accept : α → State → State) {s : State}
    (hpos : s.pos = .start) (hm : 0 < s.cfg.maxAttempts) (ho : s.isOpen b = false) :
    pollStep b op accept s = { s with att := 0 }.openBus b := by
  rcases pollStep_idle_or_due b op accept s with (⟨hp, -⟩ | ⟨-, -, he⟩ | ⟨-, hd, -⟩) | ⟨-, ho'⟩
  · simp [hpos] at hp
  · simpa [State.inPoll, hpos] using he
  · simp [attemptDue, hpos, hm] at hd
  · simp [ho] at ho'

/-- Settles O21, by `pollStep_opens` on each bus. -/
theorem busOpensBeforeItsFirstTransaction : Obligations.BusOpensBeforeItsFirstTransaction := by
  intro i s hr hpos hm
  refine ⟨fun hg ho => ?_, fun hg ho => ?_⟩
  · rw [exec_run hr (microList_hget hg), hget, pollStep_opens .hub _ _ hpos hm ho]; rfl
  · obtain ⟨r, hgrd⟩ := Option.isSome_iff_exists.1 hg
    obtain ⟨m, hmem, he⟩ := microList_grd hgrd
    rw [exec_run hr hmem, he, grd, pollStep_opens .reg _ _ hpos hm ho]; rfl

end Sys2Proof.Machine
end

section
/-! The invariant (10_state R20 to R38, 60_exceptions R275, R276): what each micro-operation of a running command does to the
parts of `State.Inv`, and O57 and O58 from it. -/

namespace Sys2Proof.Machine

/-! ### Accepted answers and bytes to be sent -/

/-- An answer is accepted as the word it carries, when no zero filter and no bound stands against that word. -/
theorem acceptGauge_eq_some {zf : Bool} {r : GaugeReg} {v : Option Word} {raw : Word} :
    acceptGauge zf r v = some raw ↔
      v = some raw ∧ (raw = 0#16 → zeroFiltered zf r = false) ∧ okGauge r raw = true := by
  cases v with
  | none => simp [acceptGauge, gaugeFilter]
  | some w =>
    by_cases hz : w = 0#16 ∧ zeroFiltered zf r = true
    · simp only [acceptGauge, gaugeFilter, Option.some.injEq, if_pos hz, reduceCtorEq, false_iff]
      rintro ⟨rfl, hf, -⟩
      simp [hf hz.1] at hz
    · simp only [acceptGauge, gaugeFilter, Option.some.injEq, if_neg hz, Option.ite_none_right_eq_some]
      constructor
      · rintro ⟨hok, rfl⟩
        exact ⟨rfl, fun h0 => by simpa [h0] using hz, hok⟩
      · rintro ⟨rfl, -, hok⟩
        exact ⟨hok, rfl⟩

theorem accepted_of_acceptGauge {s : State} {r : GaugeReg} {v : Option Word} {raw : Word}
    (h : acceptGauge s.cfg.zeroFilterAll r v = some raw) : accepted s r raw := by
  obtain ⟨rfl, -⟩ := acceptGauge_eq_some.1 h
  exact h

theorem one_le_of_accepted {s : State} {r : GaugeReg} {raw : Word} (h : accepted s r raw)
    (hf : zeroFiltered s.cfg.zeroFilterAll r = true) : 1 ≤ raw.toNat := by
  obtain ⟨-, h0, -⟩ := acceptGauge_eq_some.1 h
  refine Nat.one_le_iff_ne_zero.2 fun hz => ?_
  simp [h0 (BitVec.eq_of_toNat_eq hz)] at hf

/-- An accepted state word lies within the plausible range (41_poll R167). -/
theorem normalise_of_accepted {s : State} {raw : Word} (h : accepted s .state raw) :
    stateLo ≤ normalise raw ∧ normalise raw ≤ stateHi := by
  obtain ⟨-, -, hok⟩ := acceptGauge_eq_some.1 h
  simpa [okGauge, okState] using hok

theorem capacity_of_accepted {s : State} {raw : Word} (h : accepted s .capacity raw) :
    1 ≤ raw.toNat ∧ raw.toNat ≤ 100 := by
  obtain ⟨-, -, hok⟩ := acceptGauge_eq_some.1 h
  exact ⟨one_le_of_accepted h rfl, by simpa [okGauge, okCap, capMax] using hok⟩

theorem directionOf_cases (n : Int) : directionOf n = .charging ∨ directionOf n = .discharging := by
  unfold directionOf; split
  · exact .inl rfl
  · exact .inr rfl

/-- An accepted time is within the bound of the direction it was read for (42_battery R194, R198). -/
theorem time_of_accepted {s : State} {n : Int} {raw : Word} (h : accepted s (timeRegister (directionOf n)) raw) :
    (s.cfg.zeroFilterAll = true → 1 ≤ raw.toNat) ∧
    ((directionOf n = .charging ∧ raw.toNat ≤ 2400) ∨ (directionOf n = .discharging ∧ raw.toNat ≤ 1800)) := by
  obtain ⟨-, -, hok⟩ := acceptGauge_eq_some.1 h
  rcases directionOf_cases n with hd | hd <;> rw [hd] at h hok ⊢
  · exact ⟨fun hz => one_le_of_accepted h hz, .inl ⟨rfl, by simpa [okGauge, timeRegister, okChgTime, chgTimeMax] using hok⟩⟩
  · exact ⟨fun hz => one_le_of_accepted h hz, .inr ⟨rfl, by simpa [okGauge, timeRegister, okDisTime, disTimeMax] using hok⟩⟩

theorem okHub_ne_zero {rx : List Byte} {b : Byte} (h : okHub rx = some b) : b ≠ 0#8 := by
  cases rx with
  | nil => cases h
  | cons c cs =>
    simp only [okHub, Option.ite_none_left_eq_some, Option.some.injEq] at h
    obtain ⟨hc, rfl⟩ := h
    exact hc

/-- ENCODE gives the zero byte for nothing but two clear flags and level 0 (40_codec R151). -/
theorem encodeOf_eq_zero {h : HubStatus} (he : encodeOf h = 0#8) :
    h.powerOff = false ∧ h.screenOff = false ∧ h.brightness = 0#4 := by
  have key : ∀ (p s : Bool) (br : Nibble), encodeStatus p s br = 0#8 → p = false ∧ s = false ∧ br = 0#4 := by decide
  exact key _ _ _ he

/-- A mutated status has a flag set or a level above 0, so it is not sent as the zero byte (70_reset R321). -/
theorem encodeOf_mutation_ne_zero {i : Instr} {h h' : HubStatus} (hm : mutation i h = some h') : encodeOf h' ≠ 0#8 := by
  intro he
  obtain ⟨hp, hs, hb⟩ := encodeOf_eq_zero he
  cases i
  case backlightIncrease | backlightDecrease =>
    simp only [mutation, Option.ite_none_right_eq_some, Option.some.injEq] at hm
    obtain ⟨hlt, rfl⟩ := hm
    have := congrArg BitVec.toNat hb
    simp at this
    omega
  all_goals simp only [mutation, Option.some.injEq, reduceCtorEq] at hm
  all_goals
    subst hm
    simp at hp hs hb

/-! ### The parts of the invariant -/

/-- A command `i` runs in a state of the invariant. -/
structure Runs (i : Instr) (s : State) : Prop where
  inv       : s.Inv
  ph        : s.ph = .run
  word      : decodeCommand s.cmd = some i
  posOk     : PosOk i s
  batteryOk : BatteryOk i s
  hubOk     : HubOk i s

/-- `t` has the events of `s` and after them events whose addresses fit. -/
def AddsFitting (s t : State) : Prop :=
  ∃ es, t.events = s.events ++ es ∧ ∀ e ∈ es, e.addressFits s.cfg.addrW

/-- What a micro-operation of `i` owes the invariant, beside the frame `MicroKeeps` and the bound on `UPC`. -/
structure Sound (i : Instr) (s t : State) : Prop where
  seen    : AddsFitting s t
  att     : t.att ≤ s.cfg.maxAttempts
  running : t.ph = .run → PosOk i t ∧ BatteryOk i t ∧ HubOk i t
  result  : t.ph = .done → ResultOk t

theorem AddsFitting.none {s t : State} (h : t.events = s.events) : AddsFitting s t := ⟨[], by simp [h], by simp⟩

theorem AddsFitting.one {s t : State} {e : Event} (h : t.events = s.events ++ [e]) (he : e.addressFits s.cfg.addrW) :
    AddsFitting s t := ⟨[e], h, by simpa using he⟩

theorem posOk_start {i : Instr} {s : State} (h : s.pos = .start) : PosOk i s := by simp [PosOk, h]

theorem batteryOk_of_not_battery {i : Instr} {s : State} (h : isBattery i = false) : BatteryOk i s := by
  refine ⟨?_, ?_, ?_⟩
  · rintro rfl; cases h
  · rintro (rfl | rfl) <;> cases h
  · rintro rfl; cases h

theorem hubOk_of_not_hub {i : Instr} {s : State} (h : isHub i = false) : HubOk i s := fun hi => by simp [h] at hi

/-- The registers that BatteryOk and HubOk speak of, but for `TXB`, are as they were. -/
def SameData (s t : State) : Prop :=
  t.status = s.status ∧ t.rxb = s.rxb ∧ t.raw = s.raw ∧ t.norm = s.norm ∧ t.dir = s.dir ∧ t.upc = s.upc ∧ t.cfg = s.cfg

theorem PollIdle.sameData {b : Bus} {s t : State} (h : PollIdle b s t) : SameData s t := by
  obtain ⟨hstatus, hrxb, -, hraw, hnorm, hdir, -, hupc, -, -, -, -, hcfg, -⟩ := h.frame
  exact ⟨hstatus, hrxb, hraw, hnorm, hdir, hupc, hcfg⟩

theorem sameData_rejected (s : State) (a : Answers) (e : Event) : SameData s (rejected s a e) := by
  obtain ⟨hstatus, hrxb, -, hraw, hnorm, hdir, -, hupc, -, -, -, -, hcfg, -⟩ := rejected_frame s a e
  exact ⟨hstatus, hrxb, hraw, hnorm, hdir, hupc, hcfg⟩

theorem BatteryOk.of_sameData {i : Instr} {s t : State} (h : BatteryOk i s) (hd : SameData s t) : BatteryOk i t := by
  obtain ⟨-, -, hraw, hnorm, hdir, hupc, hcfg⟩ := hd
  unfold BatteryOk accepted at *
  rw [hraw, hnorm, hdir, hupc, hcfg]
  exact h

theorem HubOk.of_sameData {i : Instr} {s t : State} (h : HubOk i s) (hd : SameData s t)
    (htxb : isHub i = true → s.upc = 2 → t.inPoll = true → t.txb = encodeOf s.status) : HubOk i t := by
  obtain ⟨hstatus, hrxb, -, -, -, hupc, -⟩ := hd
  intro hi
  obtain ⟨hne, hdec, hsend, -⟩ := h hi
  rw [hstatus, hrxb, hupc]
  exact ⟨hne, hdec, hsend, htxb hi⟩

/-! ### Polls: positions, attempts, results -/

theorem PosOk.att_of_inPoll {i : Instr} {s : State} (h : PosOk i s) (hp : s.inPoll = true) :
    s.att < s.cfg.maxAttempts := by
  cases hq : s.pos <;> simp [State.inPoll, hq] at hp <;> simp only [PosOk, hq] at h
  · exact h.2.2
  · exact h.2.2

theorem PosOk.attemptNumber_le {i : Instr} {s : State} (h : PosOk i s) (hb : 1 ≤ s.cfg.maxAttempts) :
    1 ≤ attemptNumber s ∧ attemptNumber s ≤ s.cfg.maxAttempts := by
  unfold attemptNumber
  cases hp : s.inPoll with
  | true => have := h.att_of_inPoll hp; simp; omega
  | false => simp [hb]

/-- Positions depend on `ATT` only within a poll. -/
theorem PosOk.of_pos {i : Instr} {s t : State} (h : PosOk i s) (hpos : t.pos = s.pos) (hupc : t.upc = s.upc)
    (hdir : t.dir = s.dir) (hcfg : t.cfg = s.cfg) (hatt : s.inPoll = true → t.att = s.att) : PosOk i t := by
  unfold PosOk at *
  rw [hpos, hupc, hdir, hcfg]
  cases hq : s.pos with
  | delayOwed | delayTaken =>
    rw [hatt (by simp [State.inPoll, hq])]
    simpa only [hq] using h
  | start => trivial
  | mixerSetOwed | raiseOwed | directiveHeld d => simpa only [hq] using h

/-- A polling step without a transaction keeps the position sound; with a budget left in every position it never fails. -/
theorem PollIdle.posOk {i : Instr} {b : Bus} {s t : State} (h : PollIdle b s t) (hpos : PosOk i s)
    (hb : 1 ≤ s.cfg.maxAttempts) (ha : s.att ≤ s.cfg.maxAttempts) :
    PosOk i t ∧ t.ph = s.ph ∧ t.att ≤ s.cfg.maxAttempts ∧ AddsFitting s t := by
  rcases h with ⟨hp, hlt, rfl⟩ | ⟨-, -, rfl⟩ | ⟨hle, hd, -⟩
  · refine ⟨?_, rfl, ha, .one (e := .delay) rfl trivial⟩
    simpa [PosOk, hp] using hpos
  · refine ⟨hpos.of_pos (by simp) (by simp) (by simp) (by simp) fun hp => by simp [hp], by simp, ?_,
      .one (e := .opened b) (by simp) trivial⟩
    cases s.inPoll <;> simp [ha]
  · exfalso
    cases hp : s.inPoll with
    | true => have := hpos.att_of_inPoll hp; simp [hp] at hle; omega
    | false => simp [hp] at hle; omega

theorem PollIdle.sound {i : Instr} {b : Bus} {s t : State} (h : PollIdle b s t) (hs : Runs i s)
    (htxb : isHub i = true → s.upc = 2 → s.txb = encodeOf s.status) : Sound i s t := by
  obtain ⟨hpos, hph, hatt, hseen⟩ := h.posOk hs.posOk hs.inv.budget hs.inv.attOk
  obtain ⟨-, -, hsame, -⟩ := h.frame
  exact
    { seen := hseen
      att := hatt
      running := fun _ =>
        ⟨hpos, hs.batteryOk.of_sameData h.sameData,
          hs.hubOk.of_sameData h.sameData fun hi hu _ => hsame.trans (htxb hi hu)⟩
      result := fun hd => by rw [hph, hs.ph] at hd; cases hd }

/-- A rejected attempt owes a delay within the budget, or ends the command in BusFailure at the last attempt. -/
theorem sound_rejected {i : Instr} {s : State} {e : Event} (hs : Runs i s) (hpoll : pollsAt i s.upc s.dir = true)
    (he : e.addressFits s.cfg.addrW) (a : Answers)
    (htxb : isHub i = true → s.upc = 2 → s.txb = encodeOf s.status) : Sound i s (rejected s a e) := by
  obtain ⟨hone, hle⟩ := hs.posOk.attemptNumber_le hs.inv.budget
  obtain ⟨-, -, hsame, -⟩ := rejected_frame s a e
  have hbat := hs.batteryOk.of_sameData (sameData_rejected s a e)
  have hhub := hs.hubOk.of_sameData (sameData_rejected s a e) fun hi hu _ => hsame.trans (htxb hi hu)
  rcases rejected_cases s a e with ⟨hlt, h⟩ | ⟨hge, h⟩ <;> rw [h] at hbat hhub ⊢
  · exact
      { seen := .one rfl he
        att := hle
        running := fun _ => ⟨⟨hpoll, hone, hlt⟩, hbat, hhub⟩
        result := fun hd => by rw [show _ = _ from hs.ph] at hd; cases hd }
  · exact
      { seen := ⟨[e, .result _], List.append_assoc _ _ _, List.forall_mem_cons.2 ⟨he, by simp [Event.addressFits]⟩⟩
        att := hle
        running := fun hr => by cases hr
        result := fun _ => ⟨rfl, Nat.le_antisymm hle hge, i, hs.word, hpoll⟩ }

end Sys2Proof.Machine
end

section
/-! Each micro-operation is `Sound`; the invariant over every step, O57, and progress, O58. -/

namespace Sys2Proof.Machine

theorem family_cases (i : Instr) : isBattery i = true ∨ isHub i = true ∨ needsOperand i = true := by
  cases i <;> decide

theorem finIndex_of_isHub {i : Instr} : isHub i = true → finIndex i = 1 ∨ finIndex i = 5 := by cases i <;> decide

theorem payloadOf_of_isHub {i : Instr} (h : isHub i = true) (s : State) : payloadOf i s = .status s.rxb s.status := by
  cases i <;> simp [isHub, isReadOnly, isMutating, payloadOf] at h ⊢

theorem payloadOf_of_needsOperand {i : Instr} (h : needsOperand i = true) (s : State) :
    payloadOf i s = .applied s.applied := by
  cases i <;> simp [needsOperand, payloadOf] at h ⊢

section
variable {i : Instr} {s : State}

/-! ### The polls -/

theorem sound_hget (hs : Runs i s) (hg : hgetAt i s.upc = true) : Sound i s (hget s) := by
  obtain ⟨hi, hu⟩ := isHub_of_hgetAt hg
  have htxb : isHub i = true → s.upc = 2 → s.txb = encodeOf s.status := fun _ h2 => by omega
  rcases hget_cases s with h | ⟨-, -, b, hb, h⟩ | ⟨-, -, -, h⟩
  · exact h.sound hs htxb
  · rw [h]
    exact
      { seen := .one rfl trivial
        att := (hs.posOk.attemptNumber_le hs.inv.budget).2
        running := fun _ =>
          ⟨posOk_start rfl, batteryOk_of_not_battery (not_isBattery_of_isHub hi), fun _ =>
            ⟨fun _ => okHub_ne_zero hb, fun _ => rfl, fun h2 => by simp at h2; omega, fun h2 => by simp at h2; omega⟩⟩
        result := fun hd => by rw [show _ = _ from hs.ph] at hd; cases hd }
  · rw [h]; exact sound_rejected hs (pollsAt_of_hgetAt s.dir hg) (by trivial) _ htxb

/-- At every attempt of HSET the byte sent is ENCODE of `S` (41_poll R175). -/
theorem hset_byte (hs : Runs i s) (hg : hsetAt i s.upc = true) :
    (if s.inPoll then s.txb else encodeOf s.status) = encodeOf s.status := by
  obtain ⟨hmut, hu⟩ := isMutating_of_hsetAt hg
  obtain ⟨-, -, -, htxb⟩ := hs.hubOk (isHub_of_isMutating hmut)
  cases hp : s.inPoll with
  | true => exact htxb hu hp
  | false => rfl

/-- Loading `TXB` keeps the invariant. -/
theorem Runs.loadTxb (hs : Runs i s) : Runs i { s with txb := encodeOf s.status } := by
  obtain ⟨hinv, hph, hword, hpos, hbat, hhub⟩ := hs
  have hhub' : HubOk i { s with txb := encodeOf s.status } := fun hi =>
    let ⟨hne, hdec, hsend, _⟩ := hhub hi
    ⟨hne, hdec, hsend, fun _ _ => rfl⟩
  obtain ⟨hbudget, harg, hseen, hatt, hvalid, hrun, hres⟩ := hinv
  refine ⟨⟨hbudget, harg, hseen, hatt, hvalid, fun _ => ?_, hres⟩, hph, hword, hpos, hbat, hhub'⟩
  obtain ⟨j, hj, hop, hupc, -⟩ := hrun hph
  obtain rfl : j = i := by simpa [hword] using hj.symm
  exact ⟨j, hword, hop, hupc, hpos, hbat, hhub'⟩

theorem sound_hset (hs : Runs i s) (hg : hsetAt i s.upc = true) : Sound i s (hset s) := by
  obtain ⟨hmut, hu⟩ := isMutating_of_hsetAt hg
  have hi := isHub_of_isMutating hmut
  obtain ⟨tx, htx, h⟩ := hset_cases s
  rw [hset_byte hs hg] at htx
  subst htx
  have hs' := hs.loadTxb
  have key : Sound i { s with txb := encodeOf s.status } (hset s) := by
    rcases h with h | ⟨-, -, -, h⟩ | ⟨-, -, -, h⟩
    · exact h.sound hs' fun _ _ => rfl
    · rw [h]
      exact
        { seen := .one rfl trivial
          att := (hs.posOk.attemptNumber_le hs.inv.budget).2
          running := fun _ =>
            ⟨posOk_start rfl, batteryOk_of_not_battery (not_isBattery_of_isHub hi), fun _ =>
              ⟨fun _ => (hs.hubOk hi).1 (by omega), fun h2 => by simp [hu] at h2, fun h2 => by simp [hu] at h2,
                fun h2 => by simp [hu] at h2⟩⟩
          result := fun hd => by rw [show _ = _ from hs.ph] at hd; cases hd }
    · rw [h]; exact sound_rejected hs' (pollsAt_of_hsetAt s.dir hg) (by trivial) _ fun _ _ => rfl
  exact ⟨key.seen, key.att, key.running, key.result⟩

/-- What an accepted gauge word means for the registers of its command (42_battery R192 to R194). -/
theorem batteryOk_read {t : State} {r : GaugeReg} (hs : Runs i s) (hr : grdAt i s.upc s.dir = some r)
    (ha : accepted s r t.raw) (hupc : t.upc = s.upc + 1) (hnorm : t.norm = s.norm) (hdir : t.dir = s.dir)
    (hcfg : t.cfg = s.cfg) : BatteryOk i t := by
  obtain ⟨-, hstate, -⟩ := hs.batteryOk
  have ha' : accepted t r t.raw := by unfold accepted at *; rw [hcfg]; exact ha
  rcases grdAt_cases hr with ⟨hi, hu, rfl⟩ | ⟨rfl, hu, rfl⟩ | ⟨rfl, hu, rfl⟩
  · refine ⟨fun hc => ?_, fun _ => ⟨fun _ => ha', fun h2 => by omega⟩, fun _ h3 => by omega⟩
    rcases hi with rfl | rfl <;> cases hc
  · exact ⟨fun _ _ => ha', fun hc => by simp at hc, fun hc => by cases hc⟩
  · refine ⟨fun hc => (by cases hc), fun hc => ⟨fun h1 => by omega, fun _ => ?_⟩, fun _ _ => hdir ▸ ha'⟩
    rw [hnorm, hdir]
    exact (hstate hc).2 (by omega)

theorem sound_grd {r : GaugeReg} (hs : Runs i s) (hr : grdAt i s.upc s.dir = some r) : Sound i s (grd r s) := by
  have hi := not_isHub_of_isBattery (isBattery_of_grdAt hr)
  have htxb : isHub i = true → s.upc = 2 → s.txb = encodeOf s.status := fun h => by simp [hi] at h
  rcases grd_cases r s with h | ⟨-, -, raw, ha, h⟩ | ⟨-, -, -, h⟩
  · exact h.sound hs htxb
  · rw [h]
    exact
      { seen := .one rfl (gaugeAddress_lt s.cfg)
        att := (hs.posOk.attemptNumber_le hs.inv.budget).2
        running := fun _ =>
          ⟨posOk_start rfl, batteryOk_read hs hr (accepted_of_acceptGauge ha) rfl rfl rfl rfl, hubOk_of_not_hub hi⟩
        result := fun hd => by rw [show _ = _ from hs.ph] at hd; cases hd }
  · rw [h]; exact sound_rejected hs (pollsAt_of_grdAt hr) (by exact gaugeAddress_lt s.cfg) _ htxb

/-! ### CLS, MUT and FIN -/

theorem sound_classify (hs : Runs i s) (hi : i = .batteryState ∨ i = .batteryTime) (hu : s.upc = 1) :
    Sound i s { s with norm := normalise s.raw, dir := directionOf (normalise s.raw), upc := 2, pos := .start } := by
  obtain ⟨-, hstate, -⟩ := hs.batteryOk
  obtain ⟨hlo, hhi⟩ := normalise_of_accepted ((hstate hi).1 hu)
  refine
    { seen := .none rfl
      att := hs.inv.attOk
      running := fun _ => ⟨posOk_start rfl, ⟨?_, fun _ => ⟨fun h => by simp at h, fun _ => ⟨hlo, hhi, rfl⟩⟩, ?_⟩,
        hubOk_of_not_hub ?_⟩
      result := fun hd => by rw [show _ = _ from hs.ph] at hd; cases hd }
  · intro _ h; simp at h
  · intro _ h; simp at h
  · rcases hi with rfl | rfl <;> rfl

theorem sound_mut (hs : Runs i s) (hmut : isMutating i = true) (hu : s.upc = 1) :
    Sound i s (match mutation i s.status with | some h => mutTo h s | none => mutSkip s) := by
  have hi := isHub_of_isMutating hmut
  obtain ⟨hne, hdec, -, -⟩ := hs.hubOk hi
  have hbat : ∀ t : State, BatteryOk i t := fun t => batteryOk_of_not_battery (not_isBattery_of_isHub hi)
  cases hm : mutation i s.status with
  | some h =>
    exact
      { seen := .none rfl
        att := hs.inv.attOk
        running := fun _ => ⟨posOk_start rfl, hbat _, fun _ =>
          ⟨fun _ => hne (by omega), fun h2 => by simp at h2, fun _ => encodeOf_mutation_ne_zero hm,
            fun _ hp => by simp [State.inPoll] at hp⟩⟩
        result := fun hd => by rw [mutTo_ph, hs.ph] at hd; cases hd }
  | none =>
    exact
      { seen := .none rfl
        att := hs.inv.attOk
        running := fun _ => ⟨posOk_start rfl, hbat _, fun _ =>
          ⟨fun _ => hne (by omega), fun _ => hdec (.inl hu), fun h2 => by simp at h2, fun h2 => by simp at h2⟩⟩
        result := fun hd => by rw [mutSkip_ph, hs.ph] at hd; cases hd }

/-- At FIN the payload is of the command's kind and within its bounds (42_battery R196, R198, 30_encoding R118). -/
theorem payloadOk_fin (hs : Runs i s) (hf : s.upc = finIndex i) : PayloadOk i s (payloadOf i s) := by
  rcases family_cases i with hi | hi | hi
  · obtain ⟨hcap, hstate, htime⟩ := hs.batteryOk
    cases i <;> simp only [isBattery, Bool.false_eq_true] at hi
    case batteryState =>
      obtain ⟨-, -, hd⟩ := (hstate (.inl rfl)).2 (by rw [hf]; decide)
      exact ⟨rfl, by rw [hd]; rcases directionOf_cases s.norm with h | h <;> simp [h]⟩
    case batteryCapacity => exact ⟨rfl, capacity_of_accepted (hcap rfl hf)⟩
    case batteryTime =>
      obtain ⟨-, -, hd⟩ := (hstate (.inr rfl)).2 (by rw [hf]; decide)
      have ha := htime rfl hf
      rw [hd] at ha
      exact ⟨rfl, by simpa only [payloadOf, hd] using time_of_accepted ha⟩
  · obtain ⟨hne, hdec, -, -⟩ := hs.hubOk hi
    rw [payloadOf_of_isHub hi]
    rcases finIndex_of_isHub hi with h | h <;> rw [h] at hf <;> exact ⟨hi, hne (by omega), hdec (by omega)⟩
  · rw [payloadOf_of_needsOperand hi]; exact hi

/-- The bounds of a payload depend on the configuration alone. -/
theorem PayloadOk.of_cfg {t : State} {p : Payload} (h : PayloadOk i s p) (hcfg : t.cfg = s.cfg) : PayloadOk i t p := by
  unfold PayloadOk at *; rw [hcfg]; exact h

theorem sound_finish (hs : Runs i s) (hf : s.upc = finIndex i) : Sound i s (finish (payloadOf i s) s) :=
  { seen := .one rfl trivial
    att := hs.inv.attOk
    running := fun hr => by cases hr
    result := fun _ => by
      simpa only [ResultOk, finish_res, Res.ok_report, finish_cmd] using ⟨i, hs.word, (payloadOk_fin hs hf).of_cfg rfl⟩ }

/-! ### The speaker's micro-operations -/

/-- A step of a speaker command that goes on: only the position is to be looked at. -/
theorem Sound.goesOn {t : State} {e : Event} (hs : Runs i s) (hi : needsOperand i = true) (hph : t.ph = s.ph)
    (hatt : t.att = s.att) (he : t.events = s.events ++ [e]) (hfit : e.addressFits s.cfg.addrW) (hpos : PosOk i t) :
    Sound i s t := by
  obtain ⟨md, hmd⟩ := (needsOperand_iff_mode i).1 hi
  have hbat : isBattery i = false := by cases h : isBattery i <;> simp [modeOf_of_isBattery, h] at hmd ⊢
  have hhub : isHub i = false := by cases h : isHub i <;> simp [modeOf_of_isHub, h] at hmd ⊢
  exact
    { seen := .one he hfit
      att := hatt ▸ hs.inv.attOk
      running := fun _ => ⟨hpos, batteryOk_of_not_battery hbat, hubOk_of_not_hub hhub⟩
      result := fun hd => by rw [hph, hs.ph] at hd; cases hd }

theorem sound_mix (hs : Runs i s) (hi : needsOperand i = true) (hu : s.upc = 0) : Sound i s (mix s) := by
  rcases mix_cases s with ⟨-, h⟩ | ⟨-, h⟩ | ⟨-, -, -, h⟩ | ⟨-, -, -, h⟩ | ⟨-, -, n, -, -, h⟩ <;> rw [h]
  · exact .goesOn hs hi rfl rfl rfl trivial (posOk_start rfl)
  · exact
      { seen := .one rfl trivial
        att := hs.inv.attOk
        running := fun hr => by cases hr
        result := fun _ => ⟨hu, i, hs.word, hi⟩ }
  · exact .goesOn hs hi rfl rfl rfl trivial ⟨hi, .inl hu⟩
  · exact .goesOn hs hi rfl rfl rfl trivial (posOk_start rfl)
  · exact .goesOn hs hi rfl rfl rfl trivial ⟨hi, hu⟩

theorem sound_dirchk (hs : Runs i s) (hi : needsOperand i = true) (hu : s.upc = 1) : Sound i s (dirchk s) := by
  rcases dirchk_cases s with ⟨-, h⟩ | ⟨-, -, h⟩ | ⟨-, -, h⟩ <;> rw [h]
  · exact
      { seen := .one rfl trivial
        att := hs.inv.attOk
        running := fun hr => by cases hr
        result := fun _ => ⟨hu, i, hs.word, hi⟩ }
  · exact .goesOn hs hi rfl rfl rfl trivial (posOk_start rfl)
  · exact .goesOn hs hi rfl rfl rfl trivial ⟨hi, .inr hu⟩

theorem sound_configWrite (hs : Runs i s) (hi : needsOperand i = true) (reg : Config → Byte) (bytes : Config → ByteSeq) :
    Sound i s (onBus .reg (fun u => (regWrite (reg u.cfg) (bytes u.cfg) u).advance) s) := by
  rcases configWrite_cases reg bytes s with ⟨-, h⟩ | ⟨-, h⟩ <;> rw [h]
  · exact .goesOn hs hi rfl rfl rfl trivial (hs.posOk.of_pos rfl rfl rfl rfl fun _ => rfl)
  · exact .goesOn hs hi rfl rfl rfl hs.inv.argFits (posOk_start rfl)

theorem sound_spkReplay {md : Tag} (hs : Runs i s) (hmd : modeOf i = some md) (hu : s.upc = 3) :
    Sound i s (spkReplay md s) := by
  have hi := (needsOperand_iff_mode i).2 ⟨md, hmd⟩
  rcases spkReplay_cases md s with ⟨d, -, -, h⟩ | ⟨d, -, -, h⟩ | ⟨-, -, h⟩ | ⟨-, d, -, ht, h⟩ | ⟨-, d, -, -, h⟩ <;> rw [h]
  · exact .goesOn hs hi rfl rfl rfl trivial (hs.posOk.of_pos rfl rfl rfl rfl fun _ => rfl)
  · exact .goesOn hs hi rfl rfl rfl hs.inv.argFits (posOk_start rfl)
  · exact .goesOn hs hi rfl rfl rfl trivial (posOk_start rfl)
  · exact .goesOn hs hi rfl rfl rfl trivial ⟨hu, md, hmd, ht⟩
  · exact .goesOn hs hi rfl rfl rfl trivial (posOk_start rfl)

/-! ### Every micro-operation, every step -/

theorem sound_micro {m : State → State} (hs : Runs i s) (hm : (microList i)[s.upc]? = some m) : Sound i s (m s) := by
  rcases micro_cases hm with ⟨hg, h⟩ | ⟨hg, h⟩ | ⟨r, hr, h⟩ | ⟨hf, h⟩ | ⟨hi, hu, h⟩ | ⟨hmut, hu, h⟩ | ⟨md, hmd, hspk⟩
  · rw [h]; exact sound_hget hs hg
  · rw [h]; exact sound_hset hs hg
  · rw [h]; exact sound_grd hs hr
  · rw [h]; exact sound_finish hs hf
  · rw [h]; exact sound_classify hs hi hu
  · rw [h]; exact sound_mut hs hmut hu
  · have hi := (needsOperand_iff_mode i).2 ⟨md, hmd⟩
    rcases hspk with ⟨hu, h⟩ | ⟨hu, h⟩ | ⟨-, h⟩ | ⟨hu, h⟩ | ⟨-, h⟩ <;> rw [h]
    · exact sound_mix hs hi hu
    · exact sound_dirchk hs hi hu
    · exact sound_configWrite hs hi Config.spkCfgReg Config.spkCfgOpen
    · exact sound_spkReplay hs hmd hu
    · exact sound_configWrite hs hi Config.spkCfgReg Config.spkCfgClose

theorem AddsFitting.seenFit {t : State} (h : AddsFitting s t) (hs : s.Inv) (hcfg : t.cfg = s.cfg) :
    ∀ e ∈ t.events, e.addressFits t.cfg.addrW := by
  obtain ⟨es, he, hes⟩ := h
  rw [he, hcfg]
  exact fun e hm => (List.mem_append.1 hm).elim (hs.seenFit e) (hes e)

/-- A micro-operation keeps the invariant: the frame, the bound on `UPC`, and `Sound`. -/
theorem inv_micro {m : State → State} (hs : Runs i s) (hm : (microList i)[s.upc]? = some m) : (m s).Inv := by
  obtain ⟨⟨hcmd, harg, hargv, -, hcfg⟩, hend⟩ := microKeeps_micro hm
  obtain ⟨hseen, hatt, hrun, hres⟩ := sound_micro hs hm
  obtain ⟨j, hj, hop, -⟩ := hs.inv.running hs.ph
  obtain rfl : j = i := by simpa [hs.word] using hj.symm
  refine
    { budget := hcfg ▸ hs.inv.budget
      argFits := by rw [harg, hcfg]; exact hs.inv.argFits
      seenFit := hseen.seenFit hs.inv hcfg
      attOk := hcfg ▸ hatt
      valid := ?_
      running := fun hr => ⟨j, hcmd ▸ hs.word, hargv ▸ hop, upc_micro_le hm, hrun hr⟩
      result := hres }
  rcases hend with ⟨hph, hr⟩ | ⟨hph, hv⟩
  · rw [hph, hr]; exact hs.inv.valid
  · exact iff_of_true hv hph

/-- A latched command starts with everything at its start, or ends in InvalidArgument (30_encoding R108). -/
theorem inv_acceptAs (hs : s.Inv) (hp : s.ph = .idle) (i : Instr) (p : Presented) : (acceptAs i p s).Inv := by
  have hv : s.res.valid ≠ true := fun h => by have := hs.valid.1 h; rw [hp] at this; cases this
  unfold acceptAs
  split
  · next hc =>
    simp only [Bool.and_eq_true, Bool.not_eq_true'] at hc
    refine
      { budget := hs.budget
        argFits := latchArg_lt s.cfg p.arg
        seenFit := AddsFitting.seenFit (s := s) (.one rfl trivial) hs rfl
        attOk := hs.attOk
        valid := iff_of_true rfl rfl
        running := fun hr => by cases hr
        result := fun _ => ⟨rfl, fun j hj => ?_⟩ }
    obtain rfl : i = j := by simpa [decodeCommand_encode] using hj
    exact hc
  · next hc =>
    simp only [Bool.and_eq_true, Bool.not_eq_true', not_and, Bool.not_eq_false] at hc
    exact
      { budget := hs.budget
        argFits := latchArg_lt s.cfg p.arg
        seenFit := hs.seenFit
        attOk := hs.attOk
        valid := iff_of_false hv (by simp)
        running := fun _ => ⟨i, decodeCommand_encode i, hc, Nat.zero_le _, posOk_start rfl,
          ⟨fun _ h => by simp at h, fun _ => ⟨fun h => by simp at h, fun h => by simp at h⟩, fun _ h => by simp at h⟩,
          fun _ => ⟨fun h => by simp at h, fun h => by simp at h, fun h => by simp at h, fun h => by simp at h⟩⟩
        result := fun hd => by cases hd }

theorem inv_acceptReserved (hs : s.Inv) {p : Presented} (hd : decodeCommand p.cmd = none) :
    (acceptReserved p s).Inv where
  budget := hs.budget
  argFits := latchArg_lt s.cfg p.arg
  seenFit := AddsFitting.seenFit (s := s) (.one rfl trivial) hs rfl
  attOk := hs.attOk
  valid := iff_of_true rfl rfl
  running hr := by cases hr
  result _ := ⟨rfl, fun j hj => by cases hd.symm.trans hj⟩

/-- The running command of a state of the invariant. -/
theorem State.Inv.runs (hs : s.Inv) (hr : s.ph = .run) : ∃ i, Runs i s ∧ s.upc ≤ finIndex i := by
  obtain ⟨i, hd, -, hupc, hpos, hbat, hhub⟩ := hs.running hr
  exact ⟨i, ⟨hs, hr, hd, hpos, hbat, hhub⟩, hupc⟩

end

/-- Settles O57, by the kinds of step: nothing, an acceptance, a rejected word, a micro-operation. -/
theorem invariantKeptByEveryStep : Obligations.InvariantKeptByEveryStep := by
  intro s t hs h
  rcases step_next h with ⟨rfl, -⟩ | ⟨hp, p, i, -, -, rfl⟩ | ⟨-, p, -, hd, rfl⟩ | ⟨hr, i, m, hd, hm, rfl⟩
  · exact hs
  · exact inv_acceptAs hs hp i p
  · exact inv_acceptReserved hs hd
  · obtain ⟨j, hruns, -⟩ := hs.runs hr
    obtain rfl : j = i := by simpa [hruns.word] using hd
    exact inv_micro hruns hm

/-- Settles O58: under the invariant `UPC` is an index of the list of the running command, whose word is no reserved one. -/
theorem noStepFaultsUnderTheInvariant : Obligations.NoStepFaultsUnderTheInvariant := by
  intro s hs
  cases hp : s.ph with
  | done => exact ⟨s, step_quiet (.inl hp)⟩
  | run =>
    obtain ⟨i, hruns, hupc⟩ := hs.runs hp
    have hlt : s.upc < (microList i).length := by rw [microList_length]; omega
    exact ⟨_, step_micro hp hruns.word (List.getElem?_eq_getElem hlt)⟩
  | idle =>
    cases hport : s.port with
    | none => exact ⟨s, step_quiet (.inr ⟨hp, hport⟩)⟩
    | some p =>
      cases hd : decodeCommand p.cmd with
      | some i => exact ⟨_, (step_idle hp hport hd).trans (exec_idle hp hport)⟩
      | none => exact ⟨_, step_reserved hp hport hd⟩

end Sys2Proof.Machine
end

section
/-! Nothing is read before it is written (10_state R30), O60. `State.low` hides the registers without a value at reset; two
states `Agree` on a set of written data when they are the same but for what is hidden and not in the set. Every operation
keeps the agreement it starts with, and what a micro-operation reads is `written` when it runs. -/

namespace Sys2Proof.Machine

/-! ### Agreement -/

/-- The state with the registers that have no value at reset at a fixed one, and of its events what is meaningful (R32). -/
def State.low (s : State) : State :=
  { s with
    cmd := 0#8, arg := 0, argv := false, status := HubStatus.zero, rxb := 0#8, txb := 0#8, raw := 0#16, norm := 0
    res := Res.empty, events := s.events.map Event.meaningful }

/-- The registers that `State.low` hides and some rule reads, in the groups they are written in. -/
inductive Datum where
  | command
  | status
  | txb
  | raw

/-- Two states are the same but for hidden registers outside `K`; a finished command says the same in both. -/
structure Agree (K : Set Datum) (s s' : State) : Prop where
  low     : s'.low = s.low
  report  : s.ph = .done → s'.res.report = s.res.report
  command : .command ∈ K → s'.cmd = s.cmd ∧ s'.arg = s.arg ∧ s'.argv = s.argv
  status  : .status ∈ K → s'.status = s.status ∧ s'.rxb = s.rxb
  txb     : .txb ∈ K → s'.txb = s.txb
  raw     : .raw ∈ K → s'.raw = s.raw

theorem Res.ok_meaningful (r : Res) (p : Payload) : (r.ok p).meaningful = ⟨true, 0#3, 0, p⟩ := by
  simp [Res.ok, Res.meaningful]

theorem Res.fail_meaningful (r : Res) (f : Failure) : (r.fail f).meaningful = (Res.empty.fail f).meaningful := by
  cases f <;> simp [Res.fail, Res.meaningful, Res.empty, failureCode]

theorem State.emit_low (s : State) (e : Event) : (s.emit e).low = s.low.emit e.meaningful := by
  simp [State.low, State.emit]

theorem State.openBus_low (s : State) (b : Bus) : (s.openBus b).low = s.low.openBus b := by
  cases b <;> simp [State.low, State.openBus, Event.meaningful]

theorem raise_low (f : Failure) (s : State) :
    (raise f s).low =
      { s.low with
        ph := .done, pos := .start, events := s.low.events ++ [.result (Res.empty.fail f).meaningful] } := by
  simp [State.low, raise, Event.meaningful, Res.fail_meaningful]

theorem finish_low (p : Payload) (s : State) :
    (finish p s).low =
      { s.low with ph := .done, pos := .start, events := s.low.events ++ [.result ⟨true, 0#3, 0, p⟩] } := by
  simp [State.low, finish, Event.meaningful, Res.ok_meaningful]

/-! A poll step by its position (41_poll R177). -/

section
variable {α : Type} {b : Bus} {op : State → Option α × State} {accept : α → State → State} {s : State}

theorem pollStep_of_delayOwed (hp : s.pos = .delayOwed) :
    pollStep b op accept s =
      if s.att < s.cfg.maxAttempts then (s.emit .delay).goTo .delayTaken
      else raise (.busFailure s.cfg.maxAttempts) s := by
  unfold pollStep; rw [hp]

theorem pollStep_of_delayTaken (hp : s.pos = .delayTaken) : pollStep b op accept s = attempt b op accept s := by
  unfold pollStep; rw [hp]

theorem pollStep_of_not_inPoll (hp : s.inPoll = false) :
    pollStep b op accept s =
      if 0 < s.cfg.maxAttempts then attempt b op accept { s with att := 0 }
      else raise (.busFailure s.cfg.maxAttempts) { s with att := 0 } := by
  unfold pollStep
  cases hq : s.pos with
  | delayOwed | delayTaken => simp [State.inPoll, hq] at hp
  | start | mixerSetOwed | raiseOwed | directiveHeld d => rfl

end

section
variable {K : Set Datum} {s s' : State}

namespace Agree

theorem mono {L : Set Datum} (h : Agree K s s') (hL : L ⊆ K) : Agree L s s' :=
  ⟨h.low, h.report, fun g => h.command (hL g), fun g => h.status (hL g), fun g => h.txb (hL g), fun g => h.raw (hL g)⟩

/-- What is not hidden is the same. -/
theorem field {α : Type} (h : Agree K s s') (f : State → α) (hf : ∀ u : State, f u.low = f u) : f s' = f s :=
  (hf s').symm.trans ((congrArg f h.low).trans (hf s))

theorem ph (h : Agree K s s') : s'.ph = s.ph := h.field State.ph fun _ => rfl
theorem upc (h : Agree K s s') : s'.upc = s.upc := h.field State.upc fun _ => rfl
theorem att (h : Agree K s s') : s'.att = s.att := h.field State.att fun _ => rfl
theorem dir (h : Agree K s s') : s'.dir = s.dir := h.field State.dir fun _ => rfl
theorem applied (h : Agree K s s') : s'.applied = s.applied := h.field State.applied fun _ => rfl
theorem pos (h : Agree K s s') : s'.pos = s.pos := h.field State.pos fun _ => rfl
theorem port (h : Agree K s s') : s'.port = s.port := h.field State.port fun _ => rfl
theorem answers (h : Agree K s s') : s'.answers = s.answers := h.field State.answers fun _ => rfl
theorem cfg (h : Agree K s s') : s'.cfg = s.cfg := h.field State.cfg fun _ => rfl
theorem isOpen (h : Agree K s s') (b : Bus) : s'.isOpen b = s.isOpen b := by
  cases b
  · exact h.field State.hubOpen fun _ => rfl
  · exact h.field State.regOpen fun _ => rfl
theorem inPoll (h : Agree K s s') : s'.inPoll = s.inPoll := by
  unfold State.inPoll; rw [h.pos]

/-! ### The operations on the state keep an agreement -/

theorem emit (h : Agree K s s') (e : Event) : Agree K (s.emit e) (s'.emit e) :=
  ⟨by rw [State.emit_low, State.emit_low, h.low], h.report, h.command, h.status, h.txb, h.raw⟩

theorem goTo (h : Agree K s s') (p : MicroPos) : Agree K (s.goTo p) (s'.goTo p) :=
  ⟨congrArg (State.goTo · p) h.low, h.report, h.command, h.status, h.txb, h.raw⟩

theorem advance (h : Agree K s s') : Agree K s.advance s'.advance :=
  ⟨congrArg State.advance h.low, h.report, h.command, h.status, h.txb, h.raw⟩

theorem withUpc (h : Agree K s s') (n : Nat) : Agree K { s with upc := n, pos := .start } { s' with upc := n, pos := .start } :=
  ⟨congrArg (fun u : State => { u with upc := n, pos := .start }) h.low, h.report, h.command, h.status, h.txb, h.raw⟩

theorem withAtt (h : Agree K s s') (n : Nat) : Agree K { s with att := n } { s' with att := n } :=
  ⟨congrArg (fun u : State => { u with att := n }) h.low, h.report, h.command, h.status, h.txb, h.raw⟩

theorem withApplied (h : Agree K s s') (n : Nat) : Agree K { s with applied := n } { s' with applied := n } :=
  ⟨congrArg (fun u : State => { u with applied := n }) h.low, h.report, h.command, h.status, h.txb, h.raw⟩

theorem withAnswers (h : Agree K s s') (a : Answers) : Agree K { s with answers := a } { s' with answers := a } :=
  ⟨congrArg (fun u : State => { u with answers := a }) h.low, h.report, h.command, h.status, h.txb, h.raw⟩

theorem openBus (h : Agree K s s') (b : Bus) : Agree K (s.openBus b) (s'.openBus b) := by
  refine ⟨by rw [State.openBus_low, State.openBus_low, h.low], ?_, ?_, ?_, ?_, ?_⟩
  · simpa using h.report
  · simpa using h.command
  · simpa using h.status
  · simpa using h.txb
  · simpa using h.raw

theorem raise (h : Agree K s s') (f : Failure) : Agree K (raise f s) (raise f s') :=
  ⟨by rw [raise_low, raise_low, h.low], fun _ => by simp, h.command, h.status, h.txb, h.raw⟩

theorem finish (h : Agree K s s') (p : Payload) : Agree K (finish p s) (finish p s') :=
  ⟨by rw [finish_low, finish_low, h.low], fun _ => rfl, h.command, h.status, h.txb, h.raw⟩

/-- A bus step keeps an agreement that its transaction keeps. -/
theorem onBus (h : Agree K s s') (b : Bus) {f : State → State} (hf : ∀ {u u'}, Agree K u u' → Agree K (f u) (f u')) :
    Agree K (onBus b f s) (onBus b f s') := by
  unfold Machine.onBus
  rw [h.isOpen]
  split
  · exact hf h
  · exact h.openBus b

theorem drawHub (h : Agree K s s') :
    (drawHub s').1 = (drawHub s).1 ∧ Agree K (drawHub s).2 (drawHub s').2 := by
  obtain ⟨hv, ha⟩ := drawHub_congr h.answers
  rw [drawHub_eq s, drawHub_eq s', ha]
  exact ⟨hv, h.withAnswers _⟩

theorem drawGauge (h : Agree K s s') :
    (drawGauge s').1 = (drawGauge s).1 ∧ Agree K (drawGauge s).2 (drawGauge s').2 := by
  obtain ⟨hv, ha⟩ := drawGauge_congr h.answers
  rw [drawGauge_eq s, drawGauge_eq s', ha]
  exact ⟨hv, h.withAnswers _⟩

theorem drawMixer (h : Agree K s s') :
    (drawMixer s').1 = (drawMixer s).1 ∧ Agree K (drawMixer s).2 (drawMixer s').2 := by
  obtain ⟨hv, ha⟩ := drawMixer_congr h.answers
  rw [drawMixer_eq s, drawMixer_eq s', ha]
  exact ⟨hv, h.withAnswers _⟩

theorem drawProbe (h : Agree K s s') :
    (drawProbe s').1 = (drawProbe s).1 ∧ Agree K (drawProbe s).2 (drawProbe s').2 := by
  obtain ⟨hv, ha⟩ := drawProbe_congr h.answers
  rw [drawProbe_eq s, drawProbe_eq s', ha]
  exact ⟨hv, h.withAnswers _⟩

theorem drawFetch (h : Agree K s s') :
    (drawFetch s').1 = (drawFetch s).1 ∧ Agree K (drawFetch s).2 (drawFetch s').2 := by
  obtain ⟨hv, ha⟩ := drawFetch_congr h.answers
  rw [drawFetch_eq s, drawFetch_eq s', ha]
  exact ⟨hv, h.withAnswers _⟩

/-! ### A poll -/

/-- What an agreement on `K` is after a poll step from `UPC` = `n` that adds to it what it accepts: `K` while the poll goes on
or fails, `L` when it ends. -/
def AfterPoll (K L : Set Datum) (n : Nat) (t t' : State) : Prop :=
  (Agree K t t' ∧ t.upc = n) ∨ (Agree L t t' ∧ t.upc = n + 1)

section
variable {L : Set Datum} {α : Type} {op : State → Option α × State} {accept : α → State → State}

theorem attempt (h : Agree K s s') (b : Bus)
    (hop : ∀ {u u'}, Agree K u u' → (op u').1 = (op u).1 ∧ Agree K (op u).2 (op u').2 ∧ (op u).2.upc = u.upc)
    (hacc : ∀ v {u u'}, Agree K u u' → Agree L (accept v u) (accept v u') ∧ (accept v u).upc = u.upc) :
    AfterPoll K L s.upc (attempt b op accept s) (attempt b op accept s') := by
  unfold Machine.attempt Machine.onBus
  rw [h.isOpen]
  split
  · beta_reduce
    rw [h.att]
    obtain ⟨hv, ht, hupc⟩ := hop (h.withAtt (s.att + 1))
    rcases hu : op { s with att := s.att + 1 } with ⟨r, t⟩
    rcases hu' : op { s' with att := s.att + 1 } with ⟨r', t'⟩
    rw [hu, hu'] at hv ht
    rw [hu] at hupc
    obtain rfl : r' = r := hv
    cases r' with
    | some v =>
      obtain ⟨hL, hk⟩ := hacc v ht
      exact .inr ⟨hL.advance, by rw [State.advance_upc, hk]; exact congrArg (· + 1) hupc⟩
    | none =>
      dsimp only
      rw [ht.att, ht.cfg]
      split
      · exact .inl ⟨ht.goTo _, hupc⟩
      · exact .inl ⟨ht.raise _, hupc⟩
  · exact .inl ⟨h.openBus b, by simp⟩

theorem pollStep (h : Agree K s s') (b : Bus)
    (hop : ∀ {u u'}, Agree K u u' → (op u').1 = (op u).1 ∧ Agree K (op u).2 (op u').2 ∧ (op u).2.upc = u.upc)
    (hacc : ∀ v {u u'}, Agree K u u' → Agree L (accept v u) (accept v u') ∧ (accept v u).upc = u.upc) :
    AfterPoll K L s.upc (pollStep b op accept s) (pollStep b op accept s') := by
  cases hp : s.pos with
  | delayOwed =>
    rw [pollStep_of_delayOwed hp, pollStep_of_delayOwed (h.pos.trans hp), h.att, h.cfg]
    split
    · exact .inl ⟨(h.emit _).goTo _, rfl⟩
    · exact .inl ⟨h.raise _, rfl⟩
  | delayTaken =>
    rw [pollStep_of_delayTaken hp, pollStep_of_delayTaken (h.pos.trans hp)]
    exact h.attempt b hop hacc
  | start | mixerSetOwed | raiseOwed | directiveHeld d =>
    have hn : s.inPoll = false := by simp [State.inPoll, hp]
    rw [pollStep_of_not_inPoll hn, pollStep_of_not_inPoll (h.inPoll.trans hn),
      congrArg Config.maxAttempts h.cfg]
    split
    · exact (h.withAtt 0).attempt b hop hacc
    · exact .inl ⟨(h.withAtt 0).raise _, rfl⟩

end

theorem hubTransfer (h : Agree K s s') (tx : Byte) :
    (hubTransfer tx s').1 = (hubTransfer tx s).1 ∧ Agree K (hubTransfer tx s).2 (hubTransfer tx s').2 ∧
    (hubTransfer tx s).2.upc = s.upc := by
  obtain ⟨hv, ht⟩ := h.drawHub
  unfold Machine.hubTransfer
  rw [hv]
  exact ⟨rfl, ht.emit _, by simp⟩

theorem gaugeRead (h : Agree K s s') (r : GaugeReg) :
    (gaugeRead r s').1 = (gaugeRead r s).1 ∧ Agree K (gaugeRead r s).2 (gaugeRead r s').2 ∧
    (gaugeRead r s).2.upc = s.upc := by
  obtain ⟨hv, ht⟩ := h.drawGauge
  unfold Machine.gaugeRead
  rw [hv, h.cfg]
  exact ⟨rfl, ht.emit _, by simp⟩

theorem takeStatus (h : Agree K s s') (b : Byte) : Agree (insert .status K) (takeStatus b s) (takeStatus b s') :=
  ⟨h.low, h.report, fun g => h.command (by simpa using g), fun _ => ⟨rfl, rfl⟩, fun g => h.txb (by simpa using g),
    fun g => h.raw (by simpa using g)⟩

theorem takeRaw (h : Agree K s s') (v : Word) : Agree (insert .raw K) { s with raw := v } { s' with raw := v } :=
  ⟨h.low, h.report, fun g => h.command (by simpa using g), fun g => h.status (by simpa using g),
    fun g => h.txb (by simpa using g), fun _ => rfl⟩

/-- `TXB` is ENCODE of `S` or what an earlier attempt sent. -/
theorem loadTxb (h : Agree K s s') (hstatus : .status ∈ K) (htxb : s.inPoll = true → .txb ∈ K) :
    Agree (insert .txb K) (loadTxb s) (loadTxb s') := by
  rw [loadTxb_eq s, loadTxb_eq s', h.inPoll, (h.status hstatus).1]
  refine ⟨h.low, h.report, fun g => h.command (by simpa using g), fun _ => ⟨rfl, (h.status hstatus).2⟩, fun _ => ?_,
    fun g => h.raw (by simpa using g)⟩
  cases hp : s.inPoll with
  | true => exact h.txb (htxb hp)
  | false => rfl

theorem hget (h : Agree K s s') : AfterPoll K (insert .status K) s.upc (hget s) (hget s') := by
  unfold Machine.hget
  rw [h.cfg]
  exact h.pollStep .hub (fun hu => hu.hubTransfer _) fun b _ _ hu => ⟨hu.takeStatus b, rfl⟩

theorem hset (h : Agree K s s') (hstatus : .status ∈ K) (htxb : s.inPoll = true → .txb ∈ K) :
    AfterPoll (insert .txb K) (insert .txb K) s.upc (hset s) (hset s') := by
  have hl := h.loadTxb hstatus htxb
  unfold Machine.hset
  rw [hl.txb (by simp), ← loadTxb_upc s]
  exact hl.pollStep .hub (fun hu => hu.hubTransfer _) fun _ _ _ hu => ⟨hu, rfl⟩

theorem grd (h : Agree K s s') (r : GaugeReg) : AfterPoll K (insert .raw K) s.upc (grd r s) (grd r s') :=
  h.pollStep .reg (fun hu => hu.gaugeRead r) fun v _ _ hu => ⟨hu.takeRaw v, rfl⟩

/-! ### CLS, MUT, the speaker's micro-operations, acceptance -/

theorem classify (h : Agree K s s') (hraw : .raw ∈ K) : Agree K (classify s) (classify s') := by
  unfold Machine.classify
  rw [h.raw hraw]
  exact advance ⟨congrArg (fun u : State => { u with dir := directionOf (normalise s.raw) }) h.low, h.report, h.command,
    h.status, h.txb, fun _ => rfl⟩

theorem mutTo (h : Agree K s s') (hstatus : .status ∈ K) (x : HubStatus) : Agree K (mutTo x s) (mutTo x s') :=
  withUpc (s := { s with status := x }) (s' := { s' with status := x })
    ⟨h.low, h.report, h.command, fun _ => ⟨rfl, (h.status hstatus).2⟩, h.txb, h.raw⟩ 2

theorem mutSkip (h : Agree K s s') : Agree K (mutSkip s) (mutSkip s') := h.withUpc 5

theorem mix (h : Agree K s s') : Agree K (mix s) (mix s') := by
  obtain ⟨hv, ht⟩ := h.drawMixer
  have hquery : Agree K (judgeMixer (Machine.drawMixer s).1 ((Machine.drawMixer s).2.emit (.mixerQuery (Machine.drawMixer s).1)))
      (judgeMixer (Machine.drawMixer s).1 ((Machine.drawMixer s').2.emit (.mixerQuery (Machine.drawMixer s).1))) := by
    have he := ht.emit (.mixerQuery (Machine.drawMixer s).1)
    unfold judgeMixer
    rw [he.cfg]
    split
    · exact he.goTo _
    · split
      · exact he.advance
      · exact he.goTo _
  unfold Machine.mix
  rw [h.pos, hv, h.cfg]
  cases s.pos with
  | mixerSetOwed => exact (h.emit _).advance
  | raiseOwed => exact h.raise _
  | start | delayOwed | delayTaken | directiveHeld d => exact hquery

theorem dirchk (h : Agree K s s') : Agree K (dirchk s) (dirchk s') := by
  obtain ⟨hv, ht⟩ := h.drawProbe
  have hprobe : Agree K (judgeProbe (Machine.drawProbe s).1 ((Machine.drawProbe s).2.emit (.dirProbe (Machine.drawProbe s).1)))
      (judgeProbe (Machine.drawProbe s).1 ((Machine.drawProbe s').2.emit (.dirProbe (Machine.drawProbe s).1))) := by
    unfold judgeProbe
    split
    · exact (ht.emit _).advance
    · exact (ht.emit _).goTo _
  unfold Machine.dirchk
  rw [h.pos, hv]
  cases s.pos with
  | raiseOwed => exact h.raise _
  | start | delayOwed | delayTaken | mixerSetOwed | directiveHeld d => exact hprobe

theorem regWrite (h : Agree K s s') (hcmd : .command ∈ K) (r : Byte) (v : ByteSeq) :
    Agree K (regWrite r v s) (regWrite r v s') := by
  unfold Machine.regWrite
  rw [(h.command hcmd).2.1]
  exact h.emit _

theorem configWrite (h : Agree K s s') (hcmd : .command ∈ K) (reg : Config → Byte) (bytes : Config → ByteSeq) :
    Agree K (Machine.onBus .reg (fun u => (Machine.regWrite (reg u.cfg) (bytes u.cfg) u).advance) s)
      (Machine.onBus .reg (fun u => (Machine.regWrite (reg u.cfg) (bytes u.cfg) u).advance) s') :=
  h.onBus .reg fun hu => by rw [hu.cfg]; exact (hu.regWrite hcmd _ _).advance

theorem applyDirective (h : Agree K s s') (hcmd : .command ∈ K) (d : Directive) :
    Agree K (applyDirective d s) (applyDirective d s') := by
  unfold Machine.applyDirective
  rw [h.applied]
  exact ((h.regWrite hcmd d.reg d.values).withApplied _).goTo _

theorem spkReplay (h : Agree K s s') (hcmd : .command ∈ K) (md : Tag) : Agree K (spkReplay md s) (spkReplay md s') := by
  obtain ⟨hv, ht⟩ := h.drawFetch
  have hfetch : Agree K
      (judgeDirective md (Machine.drawFetch s).1 ((Machine.drawFetch s).2.emit (.dirFetch (Machine.drawFetch s).1)))
      (judgeDirective md (Machine.drawFetch s).1 ((Machine.drawFetch s').2.emit (.dirFetch (Machine.drawFetch s).1))) := by
    unfold judgeDirective
    split
    · exact (ht.emit _).advance
    · split
      · exact (ht.emit _).goTo _
      · exact (ht.emit _).goTo _
  unfold Machine.spkReplay
  rw [h.pos, hv]
  cases s.pos with
  | directiveHeld d => exact h.onBus .reg fun hu => hu.applyDirective hcmd d
  | start | delayOwed | delayTaken | mixerSetOwed | raiseOwed => exact hfetch

/-- After the latch the command's lines agree, whatever did before. -/
theorem latch (h : Agree ∅ s s') (p : Presented) : Agree {.command} (latch p s) (latch p s') :=
  ⟨congrArg (fun u : State => { u with upc := 0, pos := .start, port := none }) h.low, h.report,
    fun _ => ⟨rfl, by simp [h.cfg], rfl⟩, fun g => by simp at g, fun g => by simp at g, fun g => by simp at g⟩

theorem acceptAs (h : Agree ∅ s s') (i : Instr) (p : Presented) : Agree {.command} (acceptAs i p s) (acceptAs i p s') := by
  have hl := h.latch { p with cmd := encode i }
  unfold Machine.acceptAs
  split
  · exact hl.raise _
  · exact ⟨congrArg (fun u : State => { u with ph := .run }) hl.low, (fun hd => by cases hd), hl.command, hl.status, hl.txb,
      hl.raw⟩

end Agree
end

/-! ### What is written when a micro-operation runs -/

/-- What the micro-operations before `UPC`, or the earlier attempts of HSET, have written of the hidden registers. -/
def written (i : Instr) (s : State) : Set Datum := fun
  | .command => True
  | .status  => isHub i = true ∧ 1 ≤ s.upc
  | .txb     => isHub i = true ∧ s.upc = 2 ∧ s.inPoll = true
  | .raw     => isBattery i = true ∧ 1 ≤ s.upc

theorem command_mem_written (i : Instr) (s : State) : .command ∈ written i s := trivial

/-- The payload of FIN is made of what is written then. -/
theorem Agree.payloadOf {i : Instr} {s s' : State} (h : Agree (written i s) s s') (hf : s.upc = finIndex i) :
    payloadOf i s' = payloadOf i s := by
  have hone : 1 ≤ s.upc := hf ▸ finIndex_pos i
  rcases family_cases i with hi | hi | hi
  · have hraw := h.raw ⟨hi, hone⟩
    cases i <;> simp only [isBattery, Bool.false_eq_true] at hi <;> simp [Machine.payloadOf, h.dir, hraw]
  · obtain ⟨hstatus, hrxb⟩ := h.status ⟨hi, hone⟩
    rw [payloadOf_of_isHub hi, payloadOf_of_isHub hi, hstatus, hrxb]
  · rw [payloadOf_of_needsOperand hi, payloadOf_of_needsOperand hi, h.applied]

end Sys2Proof.Machine
end

section
/-! O60: two runs that agree where the registers are written stay so, micro-operation by micro-operation and step by step. -/

namespace Sys2Proof.Machine

section
variable {i : Instr} {s s' : State}

/-- A speaker command reads none of the hidden registers but its own lines. -/
theorem written_subset_of_needsOperand (hi : needsOperand i = true) (t : State) : written i t ⊆ written i s := by
  obtain ⟨md, hmd⟩ := (needsOperand_iff_mode i).1 hi
  have hhub : isHub i ≠ true := fun h => by simp [modeOf_of_isHub h] at hmd
  have hbat : isBattery i ≠ true := fun h => by simp [modeOf_of_isBattery h] at hmd
  intro g hg
  cases g with
  | command => trivial
  | status => exact absurd hg.1 hhub
  | txb => exact absurd hg.1 hhub
  | raw => exact absurd hg.1 hbat

/-- With `UPC` unchanged and no HSET under way nothing more counts as written. -/
theorem written_subset_of_upc {t : State} (hupc : t.upc = s.upc) (htxb : isHub i = true → s.upc = 2 → t.inPoll = false) :
    written i t ⊆ written i s := by
  intro g hg
  cases g with
  | command => trivial
  | status => exact ⟨hg.1, hupc ▸ hg.2⟩
  | txb =>
    obtain ⟨hi, hu, hp⟩ := hg
    simp [htxb hi (hupc ▸ hu)] at hp
  | raw => exact ⟨hg.1, hupc ▸ hg.2⟩

theorem agree_hget (h : Agree (written i s) s s') (hg : hgetAt i s.upc = true) :
    Agree (written i (hget s)) (hget s) (hget s') := by
  obtain ⟨hi, hu⟩ := isHub_of_hgetAt hg
  rcases h.hget with ⟨ha, hupc⟩ | ⟨ha, hupc⟩
  · exact ha.mono (written_subset_of_upc hupc fun _ h2 => by omega)
  · refine ha.mono fun g hg' => ?_
    cases g with
    | command => exact .inr trivial
    | status => exact .inl rfl
    | txb => have := hg'.2.1; omega
    | raw => exact absurd hg'.1 (by simp [not_isBattery_of_isHub hi])

theorem agree_hset (h : Agree (written i s) s s') (hg : hsetAt i s.upc = true) :
    Agree (written i (hset s)) (hset s) (hset s') := by
  obtain ⟨hmut, hu⟩ := isMutating_of_hsetAt hg
  have hi := isHub_of_isMutating hmut
  have hstatus : .status ∈ written i s := ⟨hi, by omega⟩
  have ha : Agree (insert .txb (written i s)) (hset s) (hset s') := by
    rcases h.hset hstatus fun hp => ⟨hi, hu, hp⟩ with ⟨ha, -⟩ | ⟨ha, -⟩ <;> exact ha
  refine ha.mono fun g hg' => ?_
  cases g with
  | command => exact .inr trivial
  | status => exact .inr hstatus
  | txb => exact .inl rfl
  | raw => exact absurd hg'.1 (by simp [not_isBattery_of_isHub hi])

theorem agree_grd {r : GaugeReg} (h : Agree (written i s) s s') (hi : isBattery i = true) :
    Agree (written i (grd r s)) (grd r s) (grd r s') := by
  have hhub : isHub i ≠ true := by simp [not_isHub_of_isBattery hi]
  rcases h.grd r with ⟨ha, hupc⟩ | ⟨ha, hupc⟩
  · exact ha.mono (written_subset_of_upc hupc fun h => absurd h hhub)
  · refine ha.mono fun g hg => ?_
    cases g with
    | command => exact .inr trivial
    | status => exact absurd hg.1 hhub
    | txb => exact absurd hg.1 hhub
    | raw => exact .inl rfl

theorem agree_finish (h : Agree (written i s) s s') (hf : s.upc = finIndex i) :
    Agree (written i (finish (payloadOf i s) s)) (finish (payloadOf i s) s) (finish (payloadOf i s') s') := by
  rw [h.payloadOf hf]
  exact (h.finish _).mono (written_subset_of_upc rfl fun _ _ => rfl)

theorem agree_classify (h : Agree (written i s) s s') (hi : isBattery i = true) (hu : s.upc = 1) :
    Agree (written i (classify s)) (classify s) (classify s') := by
  have hhub : isHub i ≠ true := by simp [not_isHub_of_isBattery hi]
  have hraw : .raw ∈ written i s := ⟨hi, by omega⟩
  refine (h.classify hraw).mono fun g hg => ?_
  cases g with
  | command => trivial
  | status => exact absurd hg.1 hhub
  | txb => exact absurd hg.1 hhub
  | raw => exact hraw

theorem agree_mut (h : Agree (written i s) s s') (hmut : isMutating i = true) (hu : s.upc = 1) {m : State → State}
    (hm : ∀ u, m u = (match mutation i u.status with | some x => mutTo x u | none => mutSkip u)) :
    Agree (written i (m s)) (m s) (m s') := by
  have hi := isHub_of_isMutating hmut
  have hstatus : .status ∈ written i s := ⟨hi, by omega⟩
  have ha : Agree (written i s) (m s) (m s') ∧ (m s).inPoll = false := by
    rw [hm, hm, (h.status hstatus).1]
    cases mutation i s.status with
    | some x => exact ⟨h.mutTo hstatus x, rfl⟩
    | none => exact ⟨h.mutSkip, rfl⟩
  refine ha.1.mono fun g hg => ?_
  cases g with
  | command => trivial
  | status => exact hstatus
  | txb => exact absurd hg.2.2 (by simp [ha.2])
  | raw => exact absurd hg.1 (by simp [not_isBattery_of_isHub hi])

/-- Every micro-operation reads no more than is written before it, and what it writes is then written alike. -/
theorem agree_micro (h : Agree (written i s) s s') {m : State → State} (hm : (microList i)[s.upc]? = some m) :
    Agree (written i (m s)) (m s) (m s') := by
  rcases micro_cases hm with ⟨hg, -⟩ | ⟨hg, -⟩ | ⟨r, hr, he⟩ | ⟨hf, -⟩ | ⟨hi, hu, -⟩ | ⟨hmut, hu, -⟩ | ⟨md, hmd, hspk⟩
  · obtain rfl : hget = m := Option.some.inj ((microList_hget hg).symm.trans hm)
    exact agree_hget h hg
  · obtain rfl : hset = m := Option.some.inj ((microList_hset hg).symm.trans hm)
    exact agree_hset h hg
  · obtain ⟨m', hm', he'⟩ := microList_grd (s := s') (by rw [h.upc, h.dir]; exact hr)
    rw [h.upc, hm] at hm'
    obtain rfl : m = m' := Option.some.inj hm'
    rw [he, he']
    exact agree_grd h (isBattery_of_grdAt hr)
  · have hm' := microList_fin i
    rw [← hf, hm] at hm'
    obtain rfl := Option.some.inj hm'
    exact agree_finish h hf
  · have hc : m = classify := by
      rw [hu] at hm
      rcases hi with rfl | rfl <;> exact (Option.some.inj hm).symm
    rw [hc]
    exact agree_classify h (by rcases hi with rfl | rfl <;> rfl) hu
  · obtain ⟨m', hm', he'⟩ := microList_mut hmut
    rw [← hu, hm] at hm'
    obtain rfl : m = m' := Option.some.inj hm'
    exact agree_mut h hmut hu he'
  · refine Agree.mono ?_ (written_subset_of_needsOperand ((needsOperand_iff_mode i).2 ⟨md, hmd⟩) (s := s) (m s))
    rw [microList_speaker hmd] at hm
    have hcmd := command_mem_written i s
    rcases hspk with ⟨hu, -⟩ | ⟨hu, -⟩ | ⟨hu, -⟩ | ⟨hu, -⟩ | ⟨hu, -⟩ <;> rw [hu] at hm <;>
      obtain rfl := Option.some.inj hm
    · exact h.mix
    · exact h.dirchk
    · exact h.configWrite hcmd Config.spkCfgReg Config.spkCfgOpen
    · exact h.spkReplay hcmd md
    · exact h.configWrite hcmd Config.spkCfgReg Config.spkCfgClose

end

/-! ### Runs -/

/-- Two blocks between steps: the same but for hidden registers, and while a command runs for unwritten ones only. -/
def AgreeWhereWritten (s s' : State) : Prop :=
  Agree ∅ s s' ∧ (s.ph = .run → ∃ i, decodeCommand s.cmd = some i ∧ Agree (written i s) s s')

theorem Agree.whereWritten {i : Instr} {s s' : State} (h : Agree (written i s) s s')
    (hd : decodeCommand s.cmd = some i) : AgreeWhereWritten s s' :=
  ⟨h.mono (Set.empty_subset _), fun _ => ⟨i, hd, h⟩⟩

/-- At acceptance only the command's lines are written. -/
theorem written_acceptAs (i : Instr) (p : Presented) (s : State) : written i (acceptAs i p s) ⊆ {.command} := by
  rw [acceptAs_eq]
  intro g hg
  cases g with
  | command => rfl
  | status => exact absurd hg.2 (by simp)
  | txb => exact absurd hg.2.1 (by simp)
  | raw => exact absurd hg.2 (by simp)

/-- Whatever step one block makes, the other makes too. -/
theorem AgreeWhereWritten.step {s s' t : State} (h : AgreeWhereWritten s s') (hst : step s = .next t) :
    ∃ t', Machine.step s' = .next t' ∧ AgreeWhereWritten t t' := by
  obtain ⟨hlow, hrun⟩ := h
  rcases step_next hst with ⟨rfl, hq⟩ | ⟨hp, p, i, hport, hd, rfl⟩ | ⟨hp, p, hport, hd, rfl⟩ | ⟨hr, i, m, hd, hm, rfl⟩
  · exact ⟨s', step_quiet (by rw [hlow.ph, hlow.port]; exact hq), hlow, hrun⟩
  · have hport' := hlow.port.trans hport
    refine ⟨acceptAs i p s', (step_idle (hlow.ph.trans hp) hport' hd).trans (exec_idle (hlow.ph.trans hp) hport'), ?_⟩
    refine ((hlow.acceptAs i p).mono (written_acceptAs i p s)).whereWritten ?_
    rw [acceptAs_eq]
    exact decodeCommand_encode i
  · refine ⟨acceptReserved p s', step_reserved (hlow.ph.trans hp) (hlow.port.trans hport) hd, ?_, fun hr => by cases hr⟩
    exact ((hlow.latch p).raise _).mono (Set.empty_subset _)
  · obtain ⟨j, hj, ha⟩ := hrun hr
    obtain rfl : j = i := by simpa [hj] using hd
    have hcmd' : s'.cmd = s.cmd := (ha.command (command_mem_written j s)).1
    obtain ⟨⟨hcmd, -⟩, -⟩ := microKeeps_micro hm
    refine ⟨m s', step_micro (ha.ph.trans hr) (hcmd' ▸ hd) (ha.upc ▸ hm), (agree_micro ha hm).whereWritten ?_⟩
    rw [hcmd]
    exact hd

theorem AgreeWhereWritten.reaches {n : Nat} {s s' t : State} (h : AgreeWhereWritten s s') (r : Reaches n s t) :
    ∃ t', Reaches n s' t' ∧ AgreeWhereWritten t t' := by
  induction n generalizing s s' with
  | zero => cases r; exact ⟨s', Reaches.refl s', h⟩
  | succ n ih =>
    obtain ⟨u, hu, r'⟩ := r.of_succ
    obtain ⟨u', hu', hk⟩ := h.step hu
    obtain ⟨t', r'', ht⟩ := ih hk r'
    exact ⟨t', Reaches.step hu' r'', ht⟩

/-- Settles O60: the two idle blocks agree on nothing that is hidden, and that is enough for every step. -/
theorem unwrittenRegistersAreNotRead : Obligations.UnwrittenRegistersAreNotRead := by
  intro s t n cmd arg argv h rxb txb raw norm err attempts payload hp r
  have hk : AgreeWhereWritten s
      { s with
        cmd := cmd, arg := arg, argv := argv, status := h, rxb := rxb, txb := txb, raw := raw, norm := norm
        res := { s.res with err := err, attempts := attempts, payload := payload } } := by
    refine ⟨⟨rfl, fun hd => ?_, nofun, nofun, nofun, nofun⟩, fun hr => ?_⟩
    · rw [hp] at hd; cases hd
    · rw [hp] at hr; cases hr
  obtain ⟨t', r', ha, -⟩ := hk.reaches r
  exact ⟨t', r', congrArg State.events ha.low, ha.ph, ha.upc, ha.att, ha.dir, ha.applied, ha.report⟩

end Sys2Proof.Machine
end

section
/-! A command presented to a block that is not idle is ignored (30_encoding R105), O18: no micro-operation reads the port, so
each one commutes with `present`, and with them the step. -/

namespace Sys2Proof.Machine

/-- A command at the port changes nothing of what the operation does, and stays there (log 8). -/
def IgnoresPort (m : State → State) : Prop := ∀ (s : State) (p : Presented), m (present p s) = present p (m s)

/-- The same of an operation that also answers a value. -/
def AnswerIgnoresPort {α : Type} (op : State → α × State) : Prop :=
  ∀ (s : State) (p : Presented), op (present p s) = ((op s).1, present p (op s).2)

/-! ### The answers of the environment -/

theorem answerIgnoresPort_drawHub : AnswerIgnoresPort drawHub := fun s _ => by
  unfold drawHub present; cases s.answers.hub <;> rfl
theorem answerIgnoresPort_drawGauge : AnswerIgnoresPort drawGauge := fun s _ => by
  unfold drawGauge present; cases s.answers.gauge <;> rfl
theorem answerIgnoresPort_drawMixer : AnswerIgnoresPort drawMixer := fun s _ => by
  unfold drawMixer present; cases s.answers.mixer <;> rfl
theorem answerIgnoresPort_drawProbe : AnswerIgnoresPort drawProbe := fun s _ => by
  unfold drawProbe present; cases s.answers.probe <;> rfl
theorem answerIgnoresPort_drawFetch : AnswerIgnoresPort drawFetch := fun s _ => by
  unfold drawFetch present; cases s.answers.fetch <;> rfl

theorem answerIgnoresPort_hubTransfer (tx : Byte) : AnswerIgnoresPort (hubTransfer tx) := fun s p => by
  unfold hubTransfer; rw [answerIgnoresPort_drawHub s p]; rfl

theorem answerIgnoresPort_gaugeRead (r : GaugeReg) : AnswerIgnoresPort (gaugeRead r) := fun s p => by
  unfold gaugeRead; rw [answerIgnoresPort_drawGauge s p]; rfl

/-! ### Buses and polls -/

theorem ignoresPort_onBus (b : Bus) {f : State → State} (hf : IgnoresPort f) : IgnoresPort (onBus b f) := by
  intro s p
  have ho : (present p s).isOpen b = s.isOpen b := by cases b <;> rfl
  unfold onBus
  rw [ho]
  split
  · exact hf s p
  · cases b <;> rfl

section
variable {α : Type} {op : State → Option α × State} {accept : α → State → State}

theorem ignoresPort_attempt (b : Bus) (hop : AnswerIgnoresPort op) (hacc : ∀ v, IgnoresPort (accept v)) :
    IgnoresPort (attempt b op accept) := by
  refine ignoresPort_onBus b fun u p => ?_
  have hcount : op { present p u with att := (present p u).att + 1 } =
      ((op { u with att := u.att + 1 }).1, present p (op { u with att := u.att + 1 }).2) := hop { u with att := u.att + 1 } p
  rw [hcount]
  rcases op { u with att := u.att + 1 } with ⟨_ | v, t⟩
  · dsimp only; rw [apply_ite (present p)]; rfl
  · exact congrArg State.advance (hacc v t p)

theorem ignoresPort_pollStep (b : Bus) (hop : AnswerIgnoresPort op) (hacc : ∀ v, IgnoresPort (accept v)) :
    IgnoresPort (pollStep b op accept) := by
  intro s p
  have hatt := ignoresPort_attempt b hop hacc
  cases hp : s.pos with
  | delayOwed =>
    rw [pollStep_of_delayOwed hp, pollStep_of_delayOwed (s := present p s) hp, apply_ite (present p)]; rfl
  | delayTaken =>
    rw [pollStep_of_delayTaken hp, pollStep_of_delayTaken (s := present p s) hp, hatt]
  | start | mixerSetOwed | raiseOwed | directiveHeld d =>
    have hn : s.inPoll = false := by simp [State.inPoll, hp]
    rw [pollStep_of_not_inPoll hn, pollStep_of_not_inPoll (s := present p s) hn, apply_ite (present p), ← hatt]; rfl

end

theorem ignoresPort_hget : IgnoresPort hget := fun s p =>
  ignoresPort_pollStep .hub (answerIgnoresPort_hubTransfer s.cfg.statusReq) (fun _ _ _ => rfl) s p

theorem ignoresPort_loadTxb : IgnoresPort loadTxb := fun s p => by rw [loadTxb_eq, loadTxb_eq]; rfl

theorem ignoresPort_hset : IgnoresPort hset := fun s p => by
  unfold hset
  rw [ignoresPort_loadTxb s p]
  exact ignoresPort_pollStep .hub (answerIgnoresPort_hubTransfer (loadTxb s).txb) (fun _ _ _ => rfl) (loadTxb s) p

theorem ignoresPort_grd (r : GaugeReg) : IgnoresPort (grd r) :=
  ignoresPort_pollStep .reg (answerIgnoresPort_gaugeRead r) fun _ _ _ => rfl

/-! ### MUT and the speaker's micro-operations -/

theorem ignoresPort_mutIncrease : IgnoresPort mutIncrease := fun s p => by
  unfold mutIncrease; rw [apply_ite (present p)]; rfl

theorem ignoresPort_mutDecrease : IgnoresPort mutDecrease := fun s p => by
  unfold mutDecrease; rw [apply_ite (present p)]; rfl

theorem ignoresPort_judgeMixer (v : Option Nat) : IgnoresPort (judgeMixer v) := fun s p => by
  cases v with
  | none => rfl
  | some n => unfold judgeMixer; dsimp only; rw [apply_ite (present p)]; rfl

theorem ignoresPort_mix : IgnoresPort mix := by
  intro s p
  have hpos : (present p s).pos = s.pos := rfl
  unfold mix
  rw [hpos, answerIgnoresPort_drawMixer s p]
  cases s.pos with
  | mixerSetOwed | raiseOwed => rfl
  | start | delayOwed | delayTaken | directiveHeld d => exact ignoresPort_judgeMixer _ ((drawMixer s).2.emit _) p

theorem ignoresPort_judgeProbe (v : Bool) : IgnoresPort (judgeProbe v) := fun _ _ => by cases v <;> rfl

theorem ignoresPort_dirchk : IgnoresPort dirchk := by
  intro s p
  have hpos : (present p s).pos = s.pos := rfl
  unfold dirchk
  rw [hpos, answerIgnoresPort_drawProbe s p]
  cases s.pos with
  | raiseOwed => rfl
  | start | delayOwed | delayTaken | mixerSetOwed | directiveHeld d => exact ignoresPort_judgeProbe _ ((drawProbe s).2.emit _) p

theorem ignoresPort_judgeDirective (mode : Tag) (v : Option Directive) : IgnoresPort (judgeDirective mode v) := fun s p => by
  cases v with
  | none => rfl
  | some d => unfold judgeDirective; dsimp only; rw [apply_ite (present p)]; rfl

theorem ignoresPort_spkReplay (mode : Tag) : IgnoresPort (spkReplay mode) := by
  intro s p
  have hpos : (present p s).pos = s.pos := rfl
  unfold spkReplay
  rw [hpos, answerIgnoresPort_drawFetch s p]
  cases s.pos with
  | directiveHeld d => exact ignoresPort_onBus .reg (fun _ _ => rfl) s p
  | start | delayOwed | delayTaken | mixerSetOwed | raiseOwed => exact ignoresPort_judgeDirective mode _ ((drawFetch s).2.emit _) p

theorem ignoresPort_spkOpen : IgnoresPort spkOpen := ignoresPort_onBus .reg fun _ _ => rfl
theorem ignoresPort_spkClose : IgnoresPort spkClose := ignoresPort_onBus .reg fun _ _ => rfl

/-! ### The lists of micro-operations (30_encoding R112) -/

theorem ignoresPort_readList {m : State → State} (hm : m ∈ readList) : IgnoresPort m := by
  simp only [readList, List.mem_cons, List.not_mem_nil, or_false] at hm
  rcases hm with rfl | rfl
  · exact ignoresPort_hget
  · exact fun _ _ => rfl

theorem ignoresPort_mutatingList {m f : State → State} (hf : IgnoresPort f) (hm : m ∈ mutatingList f) :
    IgnoresPort m := by
  simp only [mutatingList, List.mem_cons, List.not_mem_nil, or_false] at hm
  rcases hm with rfl | rfl | rfl | rfl | rfl | rfl
  · exact ignoresPort_hget
  · exact hf
  · exact ignoresPort_hset
  · exact ignoresPort_hget
  · exact ignoresPort_hget
  · exact fun _ _ => rfl

theorem ignoresPort_speakerList {m : State → State} {mode : Tag} (hm : m ∈ speakerList mode) : IgnoresPort m := by
  simp only [speakerList, List.mem_cons, List.not_mem_nil, or_false] at hm
  rcases hm with rfl | rfl | rfl | rfl | rfl | rfl
  · exact ignoresPort_mix
  · exact ignoresPort_dirchk
  · exact ignoresPort_spkOpen
  · exact ignoresPort_spkReplay mode
  · exact ignoresPort_spkClose
  · exact fun _ _ => rfl

theorem ignoresPort_grdTime : IgnoresPort grdTime := fun s p => ignoresPort_grd (timeRegister s.dir) s p

theorem ignoresPort_batteryList {i : Instr} {m : State → State} (hi : isBattery i = true) (hm : m ∈ microList i) :
    IgnoresPort m := by
  cases i <;> simp only [isBattery, Bool.false_eq_true] at hi <;>
    simp only [microList, List.mem_cons, List.not_mem_nil, or_false] at hm
  case batteryState =>
    rcases hm with rfl | rfl | rfl
    · exact ignoresPort_grd .state
    all_goals exact fun _ _ => rfl
  case batteryCapacity =>
    rcases hm with rfl | rfl
    · exact ignoresPort_grd .capacity
    · exact fun _ _ => rfl
  case batteryTime =>
    rcases hm with rfl | rfl | rfl | rfl
    · exact ignoresPort_grd .state
    · exact fun _ _ => rfl
    · exact ignoresPort_grdTime
    · exact fun _ _ => rfl

theorem ignoresPort_micro {i : Instr} {m : State → State} (hm : m ∈ microList i) : IgnoresPort m := by
  cases i
  case batteryState | batteryCapacity | batteryTime => exact ignoresPort_batteryList rfl hm
  case systemState | backlightState | lidState => exact ignoresPort_readList hm
  case speakerLeft | speakerRight | speakerMono => exact ignoresPort_speakerList hm
  case backlightIncrease => exact ignoresPort_mutatingList ignoresPort_mutIncrease hm
  case backlightDecrease => exact ignoresPort_mutatingList ignoresPort_mutDecrease hm
  all_goals exact ignoresPort_mutatingList (fun _ _ => rfl) hm

/-- Settles O18: a running block's micro-operation ignores the port, and a block that is done stays as it is. -/
theorem presentedCommandIgnoredUnlessIdle : Obligations.PresentedCommandIgnoredUnlessIdle := by
  intro s t p hp h
  rcases step_next h with ⟨rfl, hd | ⟨hidle, -⟩⟩ | ⟨hidle, -⟩ | ⟨hidle, -⟩ | ⟨hr, i, m, hcmd, hm, rfl⟩
  · exact step_quiet (.inl hd)
  · exact absurd hidle hp
  · exact absurd hidle hp
  · exact absurd hidle hp
  · rw [← ignoresPort_micro (List.mem_of_getElem? hm) s p]
    exact step_micro (s := present p s) hr hcmd hm

end Sys2Proof.Machine
end

section
/-! The speaker's precondition and configuration steps (44_speaker R253 to R257): O45, O46, O47. Each is read off the law of
its micro-operation, which says everything that it can do. -/

namespace Sys2Proof.Machine

/-- The micro-operation of a running speaker command, by its index in the list that all three share but for the mode. -/
theorem exec_speaker {i : Instr} {s : State} {m : State → State} (hi : needsOperand i = true) (hr : s.ph = .run)
    (hm : ∀ mode, (speakerList mode)[s.upc]? = some m) : exec i s = .next (m s) := by
  obtain ⟨mode, hmode⟩ := (needsOperand_iff_mode i).1 hi
  exact exec_run hr (by rw [microList_speaker hmode]; exact hm mode)

/-- Settles O45: the five ways of `mix_cases` are told apart by the position and the mixer's answer. -/
theorem mixerPrecondition : Obligations.MixerPrecondition := by
  intro i s hi hr hu
  rw [exec_speaker (m := mix) hi hr fun _ => by rw [hu]; rfl]
  rcases mix_cases s with ⟨hp, h⟩ | ⟨hp, h⟩ | ⟨hset, hraise, hv, h⟩ | ⟨hset, hraise, hv, h⟩ | ⟨hset, hraise, n, hv, hn, h⟩
  · simp [hp, h, hu]
  · simp [hp, h]
  · simp [hset, hraise, hv, h]
  · simpa [hset, hraise, hv, h, hu] using fun hstart : s.pos = .start => hstart.symm
  · simp [hset, hraise, hv, hn, h]

/-- Settles O46: the three ways of `dirchk_cases` are told apart by the position and the host's answer. -/
theorem directiveSourceCheck : Obligations.DirectiveSourceCheck := by
  intro i s hi hr hu
  rw [exec_speaker (m := dirchk) hi hr fun _ => by rw [hu]; rfl]
  rcases dirchk_cases s with ⟨hp, h⟩ | ⟨hp, hv, h⟩ | ⟨hp, hv, h⟩
  · simp [hp, h]
  · simp [hp, hv, h, hu]
  · simp [hp, hv, h]

/-- SPKOPEN and SPKCLOSE are the configuration write of their bytes (44_speaker R255, R257). -/
theorem exec_configWrite {i : Instr} {s : State} (hi : needsOperand i = true) (hr : s.ph = .run)
    (hu : s.upc = 2 ∨ s.upc = 4) :
    exec i s = .next (onBus .reg
      (fun u => (regWrite u.cfg.spkCfgReg (if s.upc = 2 then u.cfg.spkCfgOpen else u.cfg.spkCfgClose) u).advance) s) := by
  rcases hu with hu | hu
  · exact (exec_speaker (m := spkOpen) hi hr fun _ => by rw [hu]; rfl).trans (by simp [hu, spkOpen])
  · exact (exec_speaker (m := spkClose) hi hr fun _ => by rw [hu]; rfl).trans (by simp [hu, spkClose])

/-- Settles O47: the two ways of `configWrite_cases` are told apart by the handle. -/
theorem configurationRegisterOpenedAndClosed : Obligations.ConfigurationRegisterOpenedAndClosed := by
  intro i s hi hr hu
  rw [exec_configWrite hi hr hu]
  rcases configWrite_cases Config.spkCfgReg (fun c => if s.upc = 2 then c.spkCfgOpen else c.spkCfgClose) s with
    ⟨ho, h⟩ | ⟨ho, h⟩
  · exact ⟨fun _ => congrArg _ h, fun hc => by simp [ho] at hc⟩
  · exact ⟨fun hc => by simp [ho] at hc, fun _ => congrArg _ h⟩

end Sys2Proof.Machine
end

section
/-! How a running command ends (60_exceptions R276, R278): FIN delivers the payload, and whatever else ends it is a `raise` in a
state that differs from the one before in what the last attempt wrote. O51 reads the frame off that. -/

namespace Sys2Proof.Machine

/-- The failures of the micro-operation at `UPC` of the command `i`: BusFailure after what the last attempt of a poll wrote, and
the owed `raise` of MIX and of DIRCHK, which nothing comes before (41_poll R177 (e), 44_speaker R253, R254). -/
inductive Fails (i : Instr) (s : State) : State → Prop where
  | poll (att : Nat) (txb : Byte) (a : Answers) (es : List Event) (hpoll : pollsAt i s.upc s.dir = true)
      (htxb : hsetAt i s.upc = false → txb = s.txb) (hes : es.length ≤ 1) :
      Fails i s (raise (.busFailure s.cfg.maxAttempts) { s with att := att, txb := txb, answers := a, events := s.events ++ es })
  | mixer (hi : needsOperand i = true) (hu : s.upc = 0) : Fails i s (raise .mixerQueryFailed s)
  | source (hi : needsOperand i = true) (hu : s.upc = 1) : Fails i s (raise .configMissing s)

/-- A step that the command survives, or that fails. -/
def GoesOnOrFails (i : Instr) (s t : State) : Prop := t.ph = s.ph ∨ Fails i s t

section
variable {i : Instr} {s : State}

theorem PollIdle.goesOnOrFails {b : Bus} {txb : Byte} {t : State} (h : PollIdle b { s with txb := txb } t)
    (hpoll : pollsAt i s.upc s.dir = true) (htxb : hsetAt i s.upc = false → txb = s.txb) : GoesOnOrFails i s t := by
  rcases h with ⟨-, -, rfl⟩ | ⟨-, -, rfl⟩ | ⟨-, -, rfl⟩
  · exact .inl rfl
  · exact .inl (by simp)
  · rw [← List.append_nil s.events]
    exact .inr (.poll (if s.inPoll then s.att else 0) txb s.answers [] hpoll htxb (by simp))

theorem rejected_goesOnOrFails {txb : Byte} (a : Answers) (e : Event)
    (hpoll : pollsAt i s.upc s.dir = true) (htxb : hsetAt i s.upc = false → txb = s.txb) :
    GoesOnOrFails i s (rejected { s with txb := txb } a e) := by
  rcases rejected_cases { s with txb := txb } a e with ⟨-, h⟩ | ⟨-, h⟩ <;> rw [h]
  · exact .inl rfl
  · exact .inr (.poll (attemptNumber s) txb a [e] hpoll htxb (by simp))

theorem hget_goesOnOrFails (hg : hgetAt i s.upc = true) : GoesOnOrFails i s (hget s) := by
  have hpoll := pollsAt_of_hgetAt s.dir hg
  rcases hget_cases s with h | ⟨-, -, b, -, h⟩ | ⟨-, -, -, h⟩
  · exact h.goesOnOrFails hpoll fun _ => rfl
  · exact .inl (by rw [h])
  · rw [h]; exact rejected_goesOnOrFails _ _ hpoll fun _ => rfl

theorem hset_goesOnOrFails (hs : hsetAt i s.upc = true) : GoesOnOrFails i s (hset s) := by
  have hpoll := pollsAt_of_hsetAt s.dir hs
  obtain ⟨tx, -, h | ⟨-, -, -, h⟩ | ⟨-, -, -, h⟩⟩ := hset_cases s
  · exact h.goesOnOrFails hpoll fun hn => by simp [hs] at hn
  · exact .inl (by rw [h])
  · rw [h]; exact rejected_goesOnOrFails _ _ hpoll fun hn => by simp [hs] at hn

theorem grd_goesOnOrFails {r : GaugeReg} (hr : grdAt i s.upc s.dir = some r) : GoesOnOrFails i s (grd r s) := by
  have hpoll := pollsAt_of_grdAt hr
  rcases grd_cases r s with h | ⟨-, -, raw, -, h⟩ | ⟨-, -, -, h⟩
  · exact h.goesOnOrFails hpoll fun _ => rfl
  · exact .inl (by rw [h])
  · rw [h]; exact rejected_goesOnOrFails _ _ hpoll fun _ => rfl

theorem mix_goesOnOrFails (hi : needsOperand i = true) (hu : s.upc = 0) : GoesOnOrFails i s (mix s) := by
  rcases mix_cases s with ⟨-, h⟩ | ⟨-, h⟩ | ⟨-, -, -, h⟩ | ⟨-, -, -, h⟩ | ⟨-, -, n, -, -, h⟩ <;> rw [h]
  case inr.inl => exact .inr (.mixer hi hu)
  all_goals exact .inl rfl

theorem dirchk_goesOnOrFails (hi : needsOperand i = true) (hu : s.upc = 1) : GoesOnOrFails i s (dirchk s) := by
  rcases dirchk_cases s with ⟨-, h⟩ | ⟨-, -, h⟩ | ⟨-, -, h⟩ <;> rw [h]
  case inl => exact .inr (.source hi hu)
  all_goals exact .inl rfl

end

theorem configWrite_ph (reg : Config → Byte) (bytes : Config → ByteSeq) (s : State) :
    (onBus .reg (fun u => (regWrite (reg u.cfg) (bytes u.cfg) u).advance) s).ph = s.ph := by
  rcases configWrite_cases reg bytes s with ⟨-, h⟩ | ⟨-, h⟩ <;> rw [h]

theorem spkReplay_ph (mode : Tag) (s : State) : (spkReplay mode s).ph = s.ph := by
  rcases spkReplay_cases mode s with ⟨d, -, -, h⟩ | ⟨d, -, -, h⟩ | ⟨-, -, h⟩ | ⟨-, d, -, -, h⟩ | ⟨-, d, -, -, h⟩ <;> rw [h]

/-- A micro-operation is FIN, or the command goes on or fails. -/
theorem micro_finishes_or_goesOnOrFails {i : Instr} {s : State} {m : State → State} (hm : (microList i)[s.upc]? = some m) :
    (s.upc = finIndex i ∧ m s = finish (payloadOf i s) s) ∨ GoesOnOrFails i s (m s) := by
  rcases micro_cases hm with ⟨hg, h⟩ | ⟨hs, h⟩ | ⟨r, hr, h⟩ | hfin | ⟨-, -, h⟩ | ⟨-, -, h⟩ | ⟨md, hmd, hspk⟩
  · rw [h]; exact .inr (hget_goesOnOrFails hg)
  · rw [h]; exact .inr (hset_goesOnOrFails hs)
  · rw [h]; exact .inr (grd_goesOnOrFails hr)
  · exact .inl hfin
  · rw [h]; exact .inr (.inl rfl)
  · rw [h]; split <;> exact .inr (.inl rfl)
  · have hi : needsOperand i = true := (needsOperand_iff_mode i).2 ⟨md, hmd⟩
    rcases hspk with ⟨hu, h⟩ | ⟨hu, h⟩ | ⟨-, h⟩ | ⟨-, h⟩ | ⟨-, h⟩ <;> rw [h]
    · exact .inr (mix_goesOnOrFails hi hu)
    · exact .inr (dirchk_goesOnOrFails hi hu)
    · exact .inr (.inl (configWrite_ph Config.spkCfgReg Config.spkCfgOpen s))
    · exact .inr (.inl (spkReplay_ph md s))
    · exact .inr (.inl (configWrite_ph Config.spkCfgReg Config.spkCfgClose s))

/-- Every way for a running command to end: FIN, or a failure (10_state R25, 60_exceptions R276). -/
theorem exec_ends {i : Instr} {s t : State} (hr : s.ph = .run) (h : exec i s = .next t) (hd : t.ph = .done) :
    (s.upc = finIndex i ∧ t = finish (payloadOf i s) s) ∨ Fails i s t := by
  rcases exec_next h with ⟨hp, -⟩ | ⟨hp, -⟩ | ⟨-, m, hm, rfl⟩ | ⟨hp, -⟩
  case inr.inr.inl =>
    rcases micro_finishes_or_goesOnOrFails hm with hfin | hph | hfails
    · exact .inl hfin
    · rw [hph, hr] at hd; cases hd
    · exact .inr hfails
  all_goals rw [hr] at hp; cases hp

/-- Settles O51: the command did not end by FIN, and each of the three failures is a `raise`, which writes `RES` and `PH`. -/
theorem failureWritesOnlyTheResult : Obligations.FailureWritesOnlyTheResult := by
  intro i s t hr h hd herr
  rcases exec_ends hr h hd with ⟨-, rfl⟩ | hfails
  · exact absurd rfl herr
  cases hfails with
  | poll att txb a es hpoll htxb hes =>
    exact ⟨rfl, rfl, rfl, rfl, rfl, rfl, rfl, rfl, rfl, rfl, rfl, rfl, rfl, rfl, rfl, rfl, htxb,
      fun hn => absurd rfl hn, ⟨es, rfl, hes⟩, fun hn => absurd rfl hn⟩
  | mixer | source =>
    exact ⟨rfl, rfl, rfl, rfl, rfl, rfl, rfl, rfl, rfl, rfl, rfl, rfl, rfl, rfl, rfl, rfl, fun _ => rfl,
      fun _ => ⟨rfl, rfl⟩, ⟨[], by simp, by simp⟩, fun _ => ⟨rfl, rfl⟩⟩

end Sys2Proof.Machine
end

section
/-! Retries of a poll (41_poll R161, R162): the run through any list of rejected answers, said once for every polling
micro-operation, and from it the status read as a run. -/

namespace Sys2Proof.Machine

/-- `u` differs from `s` only in what the rejected attempts and the delays of a poll write (41_poll R177). -/
def SamePoll (s u : State) : Prop :=
  u = { s with att := u.att, pos := u.pos, answers := u.answers, events := u.events }

/-- In the poll that `s` stands in, the micro-operation `m` takes its delays and rejects each of the answers `bad` at the head
of its queue, `event` being the transaction that brings an answer. -/
structure PollRejects {α : Type} (m : State → State) (queue : List α → Answers) (event : α → Event) (bad : List α)
    (s : State) : Prop where
  attempt : ∀ u x xs, SamePoll s u → attemptDue u = true → u.answers = queue (x :: xs) → x ∈ bad →
    m u = rejected u (queue xs) (event x)
  delay : ∀ u, SamePoll s u → u.pos = .delayOwed → u.att < u.cfg.maxAttempts →
    m u = { u with pos := .delayTaken, events := u.events ++ [.delay] }

/-- `u` stands in the poll of `s` with another attempt due, one attempt and one delay after `s` for each answer of `bad`. -/
structure Retried {α : Type} (queue : List α → Answers) (event : α → Event) (bad rest : List α) (s u : State) : Prop where
  same    : SamePoll s u
  due     : attemptDue u = true
  number  : attemptNumber u = attemptNumber s + bad.length
  answers : u.answers = queue rest
  events  : u.events = s.events ++ bad.flatMap fun x => [event x, .delay]

/-- The state after one rejected attempt and its delay. -/
def afterRetry (s : State) (a : Answers) (e : Event) : State :=
  { s with att := attemptNumber s, pos := .delayTaken, answers := a, events := s.events ++ [e, .delay] }

theorem SamePoll.trans {s u v : State} (h : SamePoll s u) (h' : SamePoll u v) : SamePoll s v := by
  unfold SamePoll at *
  rw [h', h]

/-- In every state of a poll the running command makes the same micro-operation. -/
theorem SamePoll.step_eq {i : Instr} {m : State → State} {s u : State} (h : SamePoll s u) (hr : s.ph = .run)
    (hd : decodeCommand s.cmd = some i) (hm : (microList i)[s.upc]? = some m) : step u = .next (m u) := by
  rw [h]; exact step_micro hr hd hm

theorem samePoll_update (s : State) (n : Nat) (p : MicroPos) (a : Answers) (es : List Event) :
    SamePoll s { s with att := n, pos := p, answers := a, events := es } := rfl

/-- One delay after each rejected attempt is one delay between each two (41_poll R162). -/
theorem withDelays_map_append {α : Type} (event : α → Event) (bad : List α) (x : α) :
    withDelays ((bad ++ [x]).map event) = (bad.flatMap fun y => [event y, .delay]) ++ [event x] := by
  induction bad with
  | nil => rfl
  | cons y bad ih => rw [List.cons_append, List.map_cons, withDelays_cons _ (by simp), ih]; rfl

section
variable {α : Type} {m : State → State} {queue : List α → Answers} {event : α → Event} {bad : List α} {x : α} {s u : State}

theorem PollRejects.samePoll (h : PollRejects m queue event (x :: bad) s) (hsame : SamePoll s u) :
    PollRejects m queue event bad u where
  attempt v y ys hv hdue hq hy := h.attempt v y ys (hsame.trans hv) hdue hq (List.mem_cons_of_mem x hy)
  delay v hv := h.delay v (hsame.trans hv)

/-- A rejected attempt within the budget, and the delay it owes. -/
theorem PollRejects.retry {i : Instr} {xs : List α} (h : PollRejects m queue event (x :: bad) s) (hr : s.ph = .run)
    (hd : decodeCommand s.cmd = some i) (hm : (microList i)[s.upc]? = some m) (hdue : attemptDue s = true)
    (hq : s.answers = queue (x :: xs)) (hlt : attemptNumber s < s.cfg.maxAttempts) :
    Reaches 2 s (afterRetry s (queue xs) (event x)) := by
  have hreject : m s = { s with
      att := attemptNumber s, answers := queue xs, events := s.events ++ [event x], pos := .delayOwed } := by
    rw [h.attempt s x xs rfl hdue hq (List.mem_cons_self ..)]; exact if_pos hlt
  refine .step (step_micro hr hd hm) (.one ?_)
  have hsame := samePoll_update s (attemptNumber s) .delayOwed (queue xs) (s.events ++ [event x])
  rw [hreject, hsame.step_eq hr hd hm, h.delay _ hsame rfl hlt]
  simp [afterRetry]

/-- The retries of a poll: two steps for each rejected answer, as long as the budget holds out for one attempt more. -/
theorem PollRejects.retried {i : Instr} {rest : List α} (h : PollRejects m queue event bad s) (hr : s.ph = .run)
    (hd : decodeCommand s.cmd = some i) (hm : (microList i)[s.upc]? = some m) (hdue : attemptDue s = true)
    (hq : s.answers = queue (bad ++ rest)) (hlt : attemptNumber s + bad.length ≤ s.cfg.maxAttempts) :
    ∃ u, Reaches (2 * bad.length) s u ∧ Retried queue event bad rest s u := by
  induction bad generalizing s with
  | nil => exact ⟨s, .refl s, rfl, hdue, rfl, hq, by simp⟩
  | cons x bad ih =>
    rw [List.length_cons] at hlt
    have hsame : SamePoll s (afterRetry s (queue (bad ++ rest)) (event x)) := samePoll_update ..
    have hnumber : attemptNumber (afterRetry s (queue (bad ++ rest)) (event x)) = attemptNumber s + 1 := rfl
    obtain ⟨u, hreach, hu⟩ := ih (h.samePoll hsame) hr hd hm rfl rfl (show _ ≤ s.cfg.maxAttempts by omega)
    refine ⟨u, ?_, hsame.trans hu.same, hu.due, ?_, hu.answers, ?_⟩
    · rw [List.length_cons, Nat.mul_succ, Nat.add_comm]
      exact (h.retry hr hd hm hdue hq (by omega)).trans hreach
    · rw [hu.number, hnumber, List.length_cons]; omega
    · rw [hu.events]; simp [afterRetry]

end

/-! ### The status read -/

theorem drawHub_of_cons {s : State} {x : List Byte} {xs : List (List Byte)} (h : s.answers.hub = x :: xs) :
    drawHub s = (x, { s with answers := { s.answers with hub := xs } }) := by
  unfold drawHub; rw [h]

theorem pollRejects_hget {s : State} {bad : List (List Byte)} (ho : s.hubOpen = true) (hbad : ∀ x ∈ bad, okHub x = none) :
    PollRejects hget (fun q => { s.answers with hub := q }) (.hubXfer s.cfg.statusReq) bad s where
  attempt u x xs hsame hdue hq hx := by
    have hopen : u.hubOpen = true := by rw [hsame]; exact ho
    have hcfg : u.cfg = s.cfg := by rw [hsame]
    rw [hget_due hdue hopen, drawHub_of_cons (xs := xs) (by rw [hq]), hbad x hx, hq, hcfg]
  delay u _ hpos hlt := hget_delay hpos hlt

theorem attemptDue_of_start {s : State} (hpos : s.pos = .start) (hbudget : 0 < s.cfg.maxAttempts) :
    attemptDue s = true := by
  simp [attemptDue, hpos, hbudget]

theorem attemptNumber_of_start {s : State} (hpos : s.pos = .start) : attemptNumber s = 1 := by
  simp [attemptNumber, State.inPoll, hpos]

/-- A status read through the rejected answers `bad` to an accepted one (41_poll R161, R162, R174). -/
theorem reaches_hget {i : Instr} {s : State} {bad : List (List Byte)} {rx : List Byte} {b : Byte} {rest : List (List Byte)}
    (hr : s.ph = .run) (hd : decodeCommand s.cmd = some i) (hg : hgetAt i s.upc = true) (hpos : s.pos = .start)
    (ho : s.hubOpen = true) (hq : s.answers.hub = bad ++ rx :: rest) (hbad : ∀ x ∈ bad, okHub x = none)
    (hlt : bad.length < s.cfg.maxAttempts) (hb : okHub rx = some b) :
    Reaches (2 * bad.length + 1) s
      { s with
        att := bad.length + 1, rxb := b, status := decodeStatus b, upc := s.upc + 1
        answers := { s.answers with hub := rest }
        events := s.events ++ withDelays ((bad ++ [rx]).map (.hubXfer s.cfg.statusReq)) } := by
  have hm := microList_hget hg
  have hone := attemptNumber_of_start hpos
  obtain ⟨u, hreach, hsame, hdue, hnumber, hanswers, hevents⟩ :=
    (pollRejects_hget ho hbad).retried hr hd hm (attemptDue_of_start hpos (by omega)) (rest := rx :: rest) (by rw [← hq])
      (by omega)
  refine hreach.trans (.one ?_)
  have hopen : u.hubOpen = true := by rw [hsame]; exact ho
  rw [hsame.step_eq hr hd hm, hget_due hdue hopen, drawHub_of_cons (xs := rest) (by rw [hanswers]), hb, hanswers, hnumber,
    hone, Nat.add_comm 1, hevents, withDelays_map_append, hsame]
  simp [hpos]

end Sys2Proof.Machine
end

section
/-! A hub command from acceptance to its first status read, and O38: the read-only command has nothing between that read and
FIN (43_hub_commands R210, R211). -/

namespace Sys2Proof.Machine

theorem needsOperand_of_isHub {i : Instr} : isHub i = true → needsOperand i = false := by cases i <;> decide
theorem finIndex_of_isReadOnly {i : Instr} : isReadOnly i = true → finIndex i = 1 := by cases i <;> decide
theorem isHub_of_isReadOnly {i : Instr} (h : isReadOnly i = true) : isHub i = true := by simp [isHub, h]
theorem hgetAt_zero {i : Instr} (h : isHub i = true) : hgetAt i 0 = true := by simp [hgetAt, h]

/-- A presented command that needs no operand starts, whatever stands on the operand lines (30_encoding R105, R107). -/
theorem step_starts {i : Instr} {s : State} {p : Presented} (hi : needsOperand i = false) (hp : s.ph = .idle)
    (hport : s.port = some p) (hd : decodeCommand p.cmd = some i) : step s = .next { latch p s with ph := .run } := by
  rw [step_idle hp hport hd, exec_idle hp hport, acceptAs, encode_of_decodeCommand hd]
  simp [hi]

/-- The step at FIN of a running command. -/
theorem step_fin {i : Instr} {s : State} (hr : s.ph = .run) (hd : decodeCommand s.cmd = some i) (hf : s.upc = finIndex i) :
    step s = .next (finish (payloadOf i s) s) :=
  step_micro (m := fun s => finish (payloadOf i s) s) hr hd (by rw [hf]; exact microList_fin i)

/-- HGET at its start on a closed bus opens it (20_memory R76). -/
theorem hget_opens {s : State} (hpos : s.pos = .start) (hbudget : 0 < s.cfg.maxAttempts) (ho : s.hubOpen = false) :
    hget s = { s with att := 0, hubOpen := true, events := s.events ++ [.opened .hub] } :=
  pollStep_opens .hub _ _ hpos hbudget ho

section
variable {i : Instr} {s : State} {p : Presented} {bad : List (List Byte)} {rx : List Byte} {b : Byte}
  {rest : List (List Byte)}

/-- A status read at its start on a closed bus: the opening, then the poll. -/
theorem reaches_hget_opening (hr : s.ph = .run) (hd : decodeCommand s.cmd = some i) (hg : hgetAt i s.upc = true)
    (hpos : s.pos = .start) (ho : s.hubOpen = false) (hq : s.answers.hub = bad ++ rx :: rest)
    (hbad : ∀ x ∈ bad, okHub x = none) (hlt : bad.length < s.cfg.maxAttempts) (hb : okHub rx = some b) :
    Reaches (2 * bad.length + 2) s
      { s with
        att := bad.length + 1, rxb := b, status := decodeStatus b, upc := s.upc + 1, hubOpen := true
        answers := { s.answers with hub := rest }
        events := s.events ++ [.opened .hub] ++ withDelays ((bad ++ [rx]).map (.hubXfer s.cfg.statusReq)) } := by
  have hbudget : 0 < s.cfg.maxAttempts := by omega
  have hopen := step_micro hr hd (microList_hget hg)
  rw [hget_opens hpos hbudget ho] at hopen
  exact .step hopen (reaches_hget hr hd hg hpos rfl hq hbad hlt hb)

/-- Every hub command on a closed bus: acceptance, the opening, and the polled status read at index 0. -/
theorem reaches_firstRead (hi : isHub i = true) (hp : s.ph = .idle) (hport : s.port = some p)
    (hd : decodeCommand p.cmd = some i) (ho : s.hubOpen = false) (hq : s.answers.hub = bad ++ rx :: rest)
    (hbad : ∀ x ∈ bad, okHub x = none) (hlt : bad.length < s.cfg.maxAttempts) (hb : okHub rx = some b) :
    Reaches (2 * bad.length + 3) s
      { latch p s with
        ph := .run, upc := 1, att := bad.length + 1, rxb := b, status := decodeStatus b, hubOpen := true
        answers := { s.answers with hub := rest }
        events := s.events ++ [.opened .hub] ++ withDelays ((bad ++ [rx]).map (.hubXfer s.cfg.statusReq)) } :=
  .step (step_starts (needsOperand_of_isHub hi) hp hport hd)
    (reaches_hget_opening (s := { latch p s with ph := .run }) rfl hd (hgetAt_zero hi) rfl ho hq hbad hlt hb)

end

/-- Settles O38: the first read, then FIN. -/
theorem readOnlyCommand : Obligations.ReadOnlyCommand := by
  intro i s p bad rx b rest hi hp hport hd ho hq hbad hlt hb
  have hhub := isHub_of_isReadOnly hi
  have hread := reaches_firstRead hhub hp hport hd ho hq hbad hlt hb
  refine ⟨_, hread.trans (.one (step_fin rfl hd (finIndex_of_isReadOnly hi).symm)), rfl, rfl, rfl, rfl, rfl, ?_, rfl⟩
  rw [payloadOf_of_isHub hhub]
  rfl

end Sys2Proof.Machine
end

section
/-! O43: what each micro-operation of a running command transmits on the hub's bus (41_poll R174, R175, 70_reset R321). -/

namespace Sys2Proof.Machine

/-- Each transfer that `t` has after the events of `s` carries the status request, or `TXB` and not the zero byte. -/
def SendsNoZero (s t : State) : Prop :=
  ∃ es, t.events = s.events ++ es ∧
    ∀ tx rx, .hubXfer tx rx ∈ es → tx = s.cfg.statusReq ∨ (tx = t.txb ∧ tx ≠ 0x00#8)

section
variable {s t : State}

theorem SendsNoZero.silent (h : t.events = s.events) : SendsNoZero s t := ⟨[], by simp [h], by simp⟩

theorem SendsNoZero.other {e : Event} (he : ∀ tx rx, e ≠ .hubXfer tx rx) (h : t.events = s.events ++ [e]) :
    SendsNoZero s t :=
  ⟨[e], h, fun tx rx hm => absurd (List.mem_singleton.1 hm).symm (he tx rx)⟩

/-- The one transaction of an attempt, with the result after it where it was the last. -/
theorem SendsNoZero.transaction {e : Event} {es : List Event}
    (he : ∀ tx rx, e = .hubXfer tx rx → tx = s.cfg.statusReq ∨ (tx = t.txb ∧ tx ≠ 0x00#8))
    (h : t.events = s.events ++ [e] ++ es) (hes : es = [] ∨ ∃ r, es = [.result r]) : SendsNoZero s t := by
  refine ⟨e :: es, by simp [h], fun tx rx hm => ?_⟩
  rcases List.mem_cons.1 hm with hm | hm
  · exact he tx rx hm.symm
  · rcases hes with rfl | ⟨r, rfl⟩ <;> simp at hm

/-- Transfers depend on the events and the configuration of the state before, and not on its other registers. -/
theorem SendsNoZero.of_txb {b : Byte} (h : SendsNoZero { s with txb := b } t) : SendsNoZero s t := h

theorem PollIdle.sendsNoZero {b : Bus} (h : PollIdle b s t) : SendsNoZero s t := by
  rcases h with ⟨-, -, rfl⟩ | ⟨-, -, rfl⟩ | ⟨-, -, rfl⟩
  · exact .other (by simp) rfl
  · exact .other (e := .opened b) (by simp) (by simp)
  · exact .other (by simp) rfl

theorem sendsNoZero_rejected {e : Event} (a : Answers)
    (he : ∀ tx rx, e = .hubXfer tx rx → tx = s.cfg.statusReq ∨ (tx = s.txb ∧ tx ≠ 0x00#8)) :
    SendsNoZero s (rejected s a e) := by
  rcases rejected_cases s a e with ⟨-, h⟩ | ⟨-, h⟩ <;> rw [h]
  · exact .transaction (es := []) he (by simp) (.inl rfl)
  · exact .transaction he rfl (.inr ⟨_, rfl⟩)

end

/-! ### The polls -/

theorem sendsNoZero_hget (s : State) : SendsNoZero s (hget s) := by
  have hreq : ∀ tx rx, Event.hubXfer s.cfg.statusReq (drawHub s).1 = .hubXfer tx rx → tx = s.cfg.statusReq := by
    rintro tx rx ⟨⟩; rfl
  rcases hget_cases s with h | ⟨-, -, b, -, h⟩ | ⟨-, -, -, h⟩
  · exact h.sendsNoZero
  · rw [h]; exact .transaction (es := []) (fun tx rx he => .inl (hreq tx rx he)) (by simp) (.inl rfl)
  · rw [h]; exact sendsNoZero_rejected _ fun tx rx he => .inl (hreq tx rx he)

/-- HSET sends ENCODE of the mutated status, which is not the zero byte (43_hub_commands R238, 70_reset R321). -/
theorem sendsNoZero_hset {i : Instr} {s : State} (hs : Runs i s) (hg : hsetAt i s.upc = true) :
    SendsNoZero s (hset s) := by
  obtain ⟨hmut, hu⟩ := isMutating_of_hsetAt hg
  obtain ⟨-, -, hne, -⟩ := hs.hubOk (isHub_of_isMutating hmut)
  have hsent : ∀ tx rx, Event.hubXfer (encodeOf s.status) (drawHub s).1 = .hubXfer tx rx →
      tx = s.cfg.statusReq ∨ (tx = encodeOf s.status ∧ tx ≠ 0x00#8) := by
    rintro tx rx ⟨⟩; exact .inr ⟨rfl, hne hu⟩
  obtain ⟨tx, htx, h⟩ := hset_cases s
  rw [hset_byte hs hg] at htx
  subst htx
  rcases h with h | ⟨-, -, -, h⟩ | ⟨-, -, -, h⟩
  · exact h.sendsNoZero.of_txb
  · rw [h]; exact .transaction (es := []) hsent (by simp) (.inl rfl)
  · rw [h]; exact (sendsNoZero_rejected (s := { s with txb := encodeOf s.status }) _ hsent).of_txb

theorem sendsNoZero_grd (r : GaugeReg) (s : State) : SendsNoZero s (grd r s) := by
  rcases grd_cases r s with h | ⟨-, -, raw, -, h⟩ | ⟨-, -, -, h⟩
  · exact h.sendsNoZero
  · rw [h]; exact .other (by simp) rfl
  · rw [h]; exact sendsNoZero_rejected _ (by simp)

/-! ### The speaker's micro-operations -/

theorem sendsNoZero_mix (s : State) : SendsNoZero s (mix s) := by
  rcases mix_cases s with ⟨-, h⟩ | ⟨-, h⟩ | ⟨-, -, -, h⟩ | ⟨-, -, -, h⟩ | ⟨-, -, n, -, -, h⟩ <;> rw [h] <;>
    exact .other (by simp) rfl

theorem sendsNoZero_dirchk (s : State) : SendsNoZero s (dirchk s) := by
  rcases dirchk_cases s with ⟨-, h⟩ | ⟨-, -, h⟩ | ⟨-, -, h⟩ <;> rw [h] <;> exact .other (by simp) rfl

theorem sendsNoZero_configWrite (reg : Config → Byte) (bytes : Config → ByteSeq) (s : State) :
    SendsNoZero s (onBus .reg (fun u => (regWrite (reg u.cfg) (bytes u.cfg) u).advance) s) := by
  rcases configWrite_cases reg bytes s with ⟨-, h⟩ | ⟨-, h⟩ <;> rw [h] <;> exact .other (by simp) rfl

theorem sendsNoZero_spkReplay (mode : Tag) (s : State) : SendsNoZero s (spkReplay mode s) := by
  rcases spkReplay_cases mode s with ⟨d, -, -, h⟩ | ⟨d, -, -, h⟩ | ⟨-, -, h⟩ | ⟨-, d, -, -, h⟩ | ⟨-, d, -, -, h⟩ <;>
    rw [h] <;> exact .other (by simp) rfl

/-! ### Every step -/

theorem sendsNoZero_micro {i : Instr} {s : State} {m : State → State} (hs : Runs i s)
    (hm : (microList i)[s.upc]? = some m) : SendsNoZero s (m s) := by
  rcases micro_cases hm with ⟨-, h⟩ | ⟨hg, h⟩ | ⟨r, -, h⟩ | ⟨-, h⟩ | ⟨-, -, h⟩ | ⟨-, -, h⟩ | ⟨md, -, hspk⟩
  · rw [h]; exact sendsNoZero_hget s
  · rw [h]; exact sendsNoZero_hset hs hg
  · rw [h]; exact sendsNoZero_grd r s
  · rw [h]; exact .other (by simp) rfl
  · rw [h]; exact .silent rfl
  · rw [h]; split <;> exact .silent rfl
  · rcases hspk with ⟨-, h⟩ | ⟨-, h⟩ | ⟨-, h⟩ | ⟨-, h⟩ | ⟨-, h⟩ <;> rw [h]
    · exact sendsNoZero_mix s
    · exact sendsNoZero_dirchk s
    · exact sendsNoZero_configWrite Config.spkCfgReg Config.spkCfgOpen s
    · exact sendsNoZero_spkReplay md s
    · exact sendsNoZero_configWrite Config.spkCfgReg Config.spkCfgClose s

theorem sendsNoZero_acceptAs (i : Instr) (p : Presented) (s : State) : SendsNoZero s (acceptAs i p s) := by
  unfold acceptAs
  split
  · exact .other (by simp) rfl
  · exact .silent rfl

theorem step_sendsNoZero {s t : State} (hs : s.Inv) (h : step s = .next t) : SendsNoZero s t := by
  rcases step_next h with ⟨rfl, -⟩ | ⟨-, p, i, -, -, rfl⟩ | ⟨-, p, -, -, rfl⟩ | ⟨hr, i, m, hd, hm, rfl⟩
  · exact .silent rfl
  · exact sendsNoZero_acceptAs i p s
  · exact .other (by simp) rfl
  · obtain ⟨j, hruns, -⟩ := hs.runs hr
    obtain rfl : j = i := by simpa [hruns.word] using hd
    exact sendsNoZero_micro hruns hm

/-- Settles O43: what a step adds to the events is determined, and `SendsNoZero` speaks of all of it. -/
theorem zeroIsNeverTransmitted : Obligations.ZeroIsNeverTransmitted := by
  rintro s t tx rx hs h ⟨es, hes, hmem⟩
  obtain ⟨es', hes', hsent⟩ := step_sendsNoZero hs h
  obtain rfl : es = es' := List.append_cancel_left (hes.symm.trans hes')
  exact hsent tx rx hmem

end Sys2Proof.Machine
end

section
/-! The command words and their check (30_encoding R106, R108), O1, O2, O17; the end of every command, O31; and SPKREPLAY step
by step, O48. -/

namespace Sys2Proof.Machine

/-! ### Command words -/

theorem decodeCommand_eq_some_iff (w : Byte) (i : Instr) : decodeCommand w = some i ↔ w = encode i :=
  ⟨fun h => (encode_of_decodeCommand h).symm, fun h => h ▸ decodeCommand_encode i⟩

theorem decodeCommand_eq_toOption (w : Byte) : decodeCommand w = (decodeWord w).toOption := by
  unfold decodeCommand; cases decodeWord w <;> rfl

/-! The reserved operations of each device (30_encoding R108 (a)). -/

theorem decodeBattery_eq_none_iff (op : Nibble) : (decodeBattery op).toOption = none ↔ 3 ≤ op.toNat := by
  revert op; decide
theorem decodeSystem_eq_none_iff (op : Nibble) : (decodeSystem op).toOption = none ↔ 2 ≤ op.toNat := by
  revert op; decide
theorem decodeBacklight_eq_none_iff (op : Nibble) : (decodeBacklight op).toOption = none ↔ op.toNat = 15 := by
  revert op; decide
theorem decodeLid_eq_none_iff (op : Nibble) : (decodeLid op).toOption = none ↔ 1 ≤ op.toNat := by
  revert op; decide
theorem decodeSpeaker_eq_none_iff (op : Nibble) : (decodeSpeaker op).toOption = none ↔ 3 ≤ op.toNat := by
  revert op; decide

/-- A word is reserved by its device, or by the operation its device does not have. -/
theorem decodeCommand_eq_none_iff (w : Byte) :
    decodeCommand w = none ↔ reservedFields (devField w).toNat (opField w).toNat = true := by
  rw [decodeCommand_eq_toOption, decodeWord]
  match (devField w).toNat with
  | 0 => simp [reservedFields, decodeBattery_eq_none_iff]
  | 1 => simp [reservedFields, decodeSystem_eq_none_iff]
  | 2 => simp [reservedFields, decodeBacklight_eq_none_iff]
  | 3 => simp [reservedFields, decodeLid_eq_none_iff]
  | 4 => simp [reservedFields, decodeSpeaker_eq_none_iff]
  | n + 5 => simp [reservedFields, Except.toOption]

/-- Settles O1: both directions of the opcode map, and its gaps device by device. -/
theorem commandWordsAndReservedWords : Obligations.CommandWordsAndReservedWords :=
  ⟨decodeCommand_eq_some_iff, decodeCommand_eq_none_iff⟩

/-- Settles O2: the six commands by the round trip of their words, the two rejections by evaluation. -/
theorem wordsOfTheTableDecode : Obligations.WordsOfTheTableDecode :=
  ⟨Laws.RoundTrip.batteryTime, Laws.RoundTrip.systemOff, Laws.RoundTrip.backlight7, Laws.RoundTrip.backlightOff,
    Laws.RoundTrip.lidState, Laws.RoundTrip.speakerMono, rfl, rfl⟩

/-! ### The command check and FIN -/

/-- A presented word that the command check refuses (30_encoding R108): reserved, or without the operand it needs. -/
theorem step_refused {s : State} {p : Presented} (hp : s.ph = .idle) (hport : s.port = some p)
    (h : decodeCommand p.cmd = none ∨ ∃ i, decodeCommand p.cmd = some i ∧ needsOperand i = true ∧ p.argv = false) :
    step s = .next (raise .invalidArgument (latch p s)) := by
  rcases h with hd | ⟨i, hd, hi, hv⟩
  · exact step_reserved hp hport hd
  · rw [step_idle hp hport hd, exec_idle hp hport, acceptAs, encode_of_decodeCommand hd]
    simp only [hi, hv, Bool.not_false, Bool.and_self, if_true]
    rw [← hv]

/-- Settles O17: both refusals raise InvalidArgument on the latched word, and the operand fits. -/
theorem commandCheckRejects : Obligations.CommandCheckRejects := by
  intro s p hp hport harg h
  rw [step_refused hp hport h, ← latchArg_of_lt harg]
  rfl

/-- Settles O31: FIN stands at the last index of every list. -/
theorem resultDelivered : Obligations.ResultDelivered := by
  intro i s hr hf
  rw [exec_run hr (by rw [hf]; exact microList_fin i)]
  rfl

/-! ### SPKREPLAY -/

theorem tagMatches_iff {mode : Tag} {d : Directive} : tagMatches mode d = true ↔ d.tag = .always ∨ d.tag = mode := by
  simp [tagMatches]

theorem exec_spkReplay {i : Instr} {mode : Tag} {s : State} (hmode : modeOf i = some mode) (hr : s.ph = .run)
    (hu : s.upc = 3) : exec i s = .next (spkReplay mode s) :=
  exec_run hr (by rw [microList_speaker hmode, hu]; rfl)

/-- Settles O48: the five ways of `spkReplay_cases` are told apart by the position, the handle, the record and its tag. -/
theorem directiveReplaySteps : Obligations.DirectiveReplaySteps := by
  intro i m s hmode hr hu
  rw [exec_spkReplay hmode hr hu]
  rcases spkReplay_cases m s with ⟨d, hp, ho, h⟩ | ⟨d, hp, ho, h⟩ | ⟨hp, hv, h⟩ | ⟨hp, d, hv, ht, h⟩ | ⟨hp, d, hv, ht, h⟩
  · simp [hp, ho, h]
  · simp [hp, ho, h]
  · simpa [hp, hv, h, hu] using fun hstart : s.pos = .start => hstart.symm
  · rcases tagMatches_iff.1 ht with htag | htag <;> simp [hp, hv, h, htag]
  · obtain ⟨halways, hother⟩ : d.tag ≠ .always ∧ d.tag ≠ m := not_or.1 fun htag => by simp [tagMatches_iff.2 htag] at ht
    simpa [hp, hv, h, halways, hother] using fun hstart : s.pos = .start => hstart.symm

end Sys2Proof.Machine
end

section
/-! CODEC: PARITY, DECODE and ENCODE bit by bit and their laws (40_codec), O3 to O8; the accepted attempts of the two
micro-operations that use them, O22 and O23. -/

namespace Sys2Proof.Machine

/-! ### HGET and HSET -/

/-- Settles O22, by the law of a due attempt of HGET. -/
theorem statusReadAccepted : Obligations.StatusReadAccepted := by
  intro i s b hr hg ho hdue hb
  rw [exec_run hr (microList_hget hg), hget_due hdue ho, hb]

/-- Settles O23, by the law of a due attempt of HSET. -/
theorem statusWriteAccepted : Obligations.StatusWriteAccepted := by
  intro i s b hr hg ho hdue hb tx
  rw [exec_run hr (microList_hset hg), hset_due hdue ho, hb]
  rfl

/-! ### PARITY -/

theorem foldr_range_xor_bits {w : Nat} (n : BitVec w) (k : Nat) (b : Bool) :
    (List.range k).foldr (fun j c => Bool.xor (n.getLsbD j) c) b = Bool.xor (parityBelow n k) b := by
  induction k generalizing b with
  | zero => simp [parityBelow]
  | succ k ih =>
    rw [List.range_succ, List.foldr_append, ih]
    simp [parityBelow, Bool.xor_left_comm]

theorem parityBelow_congr {w v k : Nat} {m : BitVec w} {n : BitVec v} (h : ∀ j < k, m.getLsbD j = n.getLsbD j) :
    parityBelow m k = parityBelow n k := by
  induction k with
  | zero => rfl
  | succ k ih => rw [parityBelow, parityBelow, h k k.lt_succ_self, ih fun j hj => h j (Nat.lt_succ_of_lt hj)]

/-- The bits from the width on are clear, so they add nothing. -/
theorem parityBelow_of_width_le {w k : Nat} (n : BitVec w) (h : w ≤ k) : parityBelow n k = parity n := by
  induction k, h using Nat.le_induction with
  | base => rfl
  | succ k hk ih => simpa [parityBelow, BitVec.getLsbD_of_ge n k hk] using ih

theorem parity_setWidth {w v : Nat} (n : BitVec w) (h : w ≤ v) : parity (n.setWidth v) = parity n := by
  rw [← parityBelow_of_width_le n h]
  exact parityBelow_congr fun j hj => by simp [hj]

/-- Zero is the empty word, widened. -/
theorem parity_zero (w : Nat) : parity (0#w) = false := by
  have h : parity ((0#0).setWidth w) = false := parity_setWidth (0#0) w.zero_le
  simpa using h

/-- Settles O3: the fold by induction on the bits, the widening by the clear bits above the width. -/
theorem parityIsXorOfAllBits : Obligations.ParityIsXorOfAllBits :=
  ⟨fun w n => by rw [foldr_range_xor_bits, Bool.xor_false, parity], fun _ _ => parity_setWidth, parity_zero, rfl, rfl, rfl⟩

theorem parity_two_bits (n : BitVec 2) : parity n = Bool.xor n[0] n[1] := by
  simp [parity, parityBelow, Bool.xor_comm]

theorem parity_nibble (n : Nibble) : parity n = Bool.xor (Bool.xor n[0] n[1]) (Bool.xor n[2] n[3]) := by
  simp [parity, parityBelow, Bool.xor_comm]

/-- "The brightness-masked result" of ENCODE has the parity of the brightness (40_codec R142). -/
theorem parity_brightnessMask (br : Nibble) : parity (br.setWidth 8 <<< 3 &&& 0x78#8) = parity br := by
  simp [parity, parityBelow]

theorem parity_stateMask (b : Byte) : parity (b &&& 0x03#8) = Bool.xor b[0] b[1] := by
  simp [parity, parityBelow, Bool.xor_comm]

/-! ### Bytes by their bits -/

theorem byte_ext {x y : Byte} (h0 : x[0] = y[0]) (h1 : x[1] = y[1]) (h2 : x[2] = y[2]) (h3 : x[3] = y[3])
    (h4 : x[4] = y[4]) (h5 : x[5] = y[5]) (h6 : x[6] = y[6]) (h7 : x[7] = y[7]) : x = y := by
  ext j hj
  interval_cases j <;> assumption

theorem getElem_orWhen {c : Bool} {b m : Byte} {j : Nat} (h : j < 8) :
    (if c then b ||| m else b)[j] = (b[j] || (c && m[j])) := by
  cases c <;> simp

/-! ### DECODE -/

/-- DECODE reads the low seven bits and nothing else. -/
theorem decodeStatus_congr {x y : Byte} (h : ∀ j < 7, x.getLsbD j = y.getLsbD j) : decodeStatus x = decodeStatus y := by
  have extract {start len : Nat} (hl : start + len ≤ 7) : x.extractLsb' start len = y.extractLsb' start len := by
    ext j hj
    simpa using h (start + j) (by omega)
  rw [decodeStatus, h 0 (by decide), h 1 (by decide), h 2 (by decide), extract (by decide), extract (by decide),
    decodeStatus]

/-- Settles O4: the flags and the brightness are bits of the byte, the parities by their two and four bits. -/
theorem decodeReadsTheStatusByte : Obligations.DecodeReadsTheStatusByte := by
  intro x
  have hbit7 : decodeStatus (x ^^^ 0x80#8) = decodeStatus x :=
    decodeStatus_congr fun j hj => by interval_cases j <;> simp
  rw [hbit7]
  simp [decodeStatus, parity_two_bits, parity_nibble]

/-! ### ENCODE -/

/-- Every bit of an encoded byte: each OR sets one bit, and the masked parities are those of the operands (40_codec R152). -/
theorem encodeStatus_bits (p s : Bool) (br : Nibble) :
    (encodeStatus p s br)[0] = p ∧ (encodeStatus p s br)[1] = s ∧ (encodeStatus p s br)[2] = Bool.xor p s ∧
    (encodeStatus p s br)[3] = br[0] ∧ (encodeStatus p s br)[4] = br[1] ∧
    (encodeStatus p s br)[5] = br[2] ∧ (encodeStatus p s br)[6] = br[3] ∧
    (encodeStatus p s br)[7] = parity br := by
  simp only [encodeStatus, parity_brightnessMask, parity_stateMask, getElem_orWhen]
  simp

/-- Settles O5: the bits of an encoded byte, with the parity of the brightness written out. -/
theorem encodeWritesTheStatusByte : Obligations.EncodeWritesTheStatusByte := by
  intro p s br
  rw [← parity_nibble]
  exact encodeStatus_bits p s br

/-! ### Decoding and encoding -/

theorem encodeStatus_brightness (p s : Bool) (br : Nibble) : (encodeStatus p s br).extractLsb' 3 4 = br := by
  ext j hj
  interval_cases j <;> simp [encodeStatus_bits]

/-- Settles O6: bits 6:3 are the brightness, bit 2 is the state parity guard. -/
theorem decodeAfterEncode : Obligations.DecodeAfterEncode := by
  intro p s br
  simp [decodeStatus, encodeStatus_brightness, encodeStatus_bits, parity_two_bits]

theorem encodeOf_decodeStatus_encodeStatus (p s : Bool) (br : Nibble) :
    encodeOf (decodeStatus (encodeStatus p s br)) = encodeStatus p s br := by
  rw [decodeAfterEncode p s br, encodeOf]

/-- Encoding after decoding writes the two guards anew and keeps the other six bits. -/
theorem encodeOf_decodeStatus_bits (x : Byte) :
    (encodeOf (decodeStatus x))[0] = x[0] ∧ (encodeOf (decodeStatus x))[1] = x[1] ∧
    (encodeOf (decodeStatus x))[2] = Bool.xor x[0] x[1] ∧
    (encodeOf (decodeStatus x))[3] = x[3] ∧ (encodeOf (decodeStatus x))[4] = x[4] ∧
    (encodeOf (decodeStatus x))[5] = x[5] ∧ (encodeOf (decodeStatus x))[6] = x[6] ∧
    (encodeOf (decodeStatus x))[7] = parity (x.extractLsb' 3 4) := by
  simp [encodeOf, decodeStatus, encodeStatus_bits]

theorem encodeOf_decodeStatus_eq_iff (x : Byte) :
    encodeOf (decodeStatus x) = x ↔ x[7] = parity (x.extractLsb' 3 4) ∧ x[2] = Bool.xor x[0] x[1] := by
  obtain ⟨h0, h1, h2, h3, h4, h5, h6, h7⟩ := encodeOf_decodeStatus_bits x
  constructor
  · intro h
    rw [h] at h2 h7
    exact ⟨h7, h2⟩
  · rintro ⟨hbrightness, hstate⟩
    exact byte_ext h0 h1 (h2.trans hstate.symm) h3 h4 h5 h6 (h7.trans hbrightness.symm)

theorem encodeOf_decodeStatus_eq_iff_encoded (x : Byte) :
    encodeOf (decodeStatus x) = x ↔ ∃ p s br, encodeStatus p s br = x := by
  constructor
  · exact fun h => ⟨_, _, _, h⟩
  · rintro ⟨p, s, br, rfl⟩
    exact encodeOf_decodeStatus_encodeStatus p s br

/-- Settles O7: the guards decide, an encoded byte decodes to its operands, and the mask 0x7B selects the six kept bits. -/
theorem encodeAfterDecode : Obligations.EncodeAfterDecode := by
  intro x
  refine ⟨encodeOf_decodeStatus_eq_iff x, encodeOf_decodeStatus_eq_iff_encoded x, ?_⟩
  apply byte_ext <;> simp [encodeOf_decodeStatus_bits]

/-! ### The results of ENCODE -/

theorem encodeStatus_injective {p s p' s' : Bool} {br br' : Nibble} (h : encodeStatus p s br = encodeStatus p' s' br') :
    p = p' ∧ s = s' ∧ br = br' := by
  have hdecoded := congrArg decodeStatus h
  rw [decodeAfterEncode, decodeAfterEncode, HubStatus.mk.injEq] at hdecoded
  obtain ⟨hp, hs, -, hbr, -⟩ := hdecoded
  exact ⟨hp, hs, hbr⟩

/-- The low three bits do not depend on the brightness. -/
theorem encodeStatus_low_bits (p s : Bool) (br : Nibble) :
    (encodeStatus p s br).extractLsb' 0 3 = (encodeStatus p s 0#4).extractLsb' 0 3 := by
  ext j hj
  interval_cases j <;> simp [encodeStatus_bits]

theorem encodeStatus_low_bits_mem (p s : Bool) (br : Nibble) :
    (encodeStatus p s br).extractLsb' 0 3 ∈ [0b000#3, 0b101#3, 0b110#3, 0b011#3] := by
  rw [encodeStatus_low_bits]
  cases p <;> cases s <;> decide

/-- Settles O8: the table row by row by evaluation, the operands recovered by decoding. -/
theorem encodeHas64Results : Obligations.EncodeHas64Results :=
  ⟨by decide, fun _ _ _ _ _ _ => encodeStatus_injective, encodeStatus_low_bits_mem, rfl, rfl⟩

end Sys2Proof.Machine
end

section
/-! Which answers a poll accepts (41_poll R166 to R171), O10 and O11, and the attempts of a poll as steps of a command
(R177 (d), (e)), O24 and O25. -/

namespace Sys2Proof.Machine

/-! ### Accepted answers -/

/-- Settles O10, by the two shapes of a response. -/
theorem hubResponseAcceptance : Obligations.HubResponseAcceptance := by
  intro rx b
  cases rx with
  | nil => simp [okHub]
  | cons c cs =>
    simp only [okHub, Option.ite_none_left_eq_some, Option.some.injEq, List.head?_cons]
    constructor
    · rintro ⟨hc, rfl⟩
      exact ⟨rfl, hc⟩
    · rintro ⟨rfl, hc⟩
      exact ⟨hc, rfl⟩

/-- NORMALISE is the two's complement of the word: complement and increment negate (42_battery R190). -/
theorem normalise_eq_toInt (raw : Word) : normalise raw = raw.toInt := by
  have hlt := raw.isLt
  rw [normalise, BitVec.toInt_eq_msb_cond, BitVec.msb_eq_getLsbD_last]
  split
  · rw [show 0xFFFF#16 = BitVec.allOnes 16 from rfl, BitVec.and_allOnes, BitVec.toNat_not]
    omega
  · rfl

/-- The plausible state words: the magnitude 4000 from above and from below zero (41_poll R167). -/
theorem okState_iff (raw : Word) : okState raw = true ↔ raw.toNat ≤ 0x0FA0 ∨ 0xF060 ≤ raw.toNat := by
  have hlt := raw.isLt
  rw [okState, normalise_eq_toInt, BitVec.toInt_eq_toNat_cond, stateLo, stateHi, Bool.and_eq_true, decide_eq_true_eq,
    decide_eq_true_eq]
  split <;> omega

theorem zeroFiltered_eq_false_iff (zf : Bool) (r : GaugeReg) :
    zeroFiltered zf r = false ↔ r ≠ .capacity ∧ zf = false := by
  cases r <;> simp [zeroFiltered]

/-- Settles O11: the zero filter and the predicate of the register, each in raw words. -/
theorem gaugeAnswerAcceptance : Obligations.GaugeAnswerAcceptance := by
  intro zf r v raw
  rw [acceptGauge_eq_some, zeroFiltered_eq_false_iff]
  cases r with
  | state => rw [okGauge, okState_iff]
  | capacity => rw [okGauge, okCap, decide_eq_true_eq]; rfl
  | chargeTime => rw [okGauge, okChgTime, decide_eq_true_eq]; rfl
  | dischargeTime => rw [okGauge, okDisTime, decide_eq_true_eq]; rfl

/-! ### Attempts -/

/-- A running command at a GRD makes it. -/
theorem exec_grd {i : Instr} {s : State} {r : GaugeReg} (hr : s.ph = .run) (hg : grdAt i s.upc s.dir = some r) :
    exec i s = .next (grd r s) := by
  obtain ⟨m, hm, hgrd⟩ := microList_grd hg
  rw [exec_run hr hm, hgrd]

/-- Settles O24, by the law of a due attempt of GRD. -/
theorem gaugeReadAccepted : Obligations.GaugeReadAccepted := by
  intro i s r raw hr hg ho hdue hraw
  rw [exec_grd hr hg, grd_due r hdue ho, hraw]

/-- Settles O25, by the laws of a due attempt of HGET, HSET and GRD. -/
theorem rejectedAttempt : Obligations.RejectedAttempt := by
  intro i s hr hdue
  refine ⟨fun hg ho hrx => ?_, fun hg ho hrx => ?_, fun r hg ho hv => ?_⟩
  · rw [exec_run hr (microList_hget hg), hget_due hdue ho, hrx]
  · rw [exec_run hr (microList_hset hg), hset_due hdue ho, hrx]
  · rw [exec_grd hr hg, grd_due r hdue ho, hv]

end Sys2Proof.Machine
end

section
/-! A poll as a whole (41_poll R161, R162): through any list of rejected answers to an accepted one, or to the end of the
budget, said once for every polling micro-operation; O26 to O29. -/

namespace Sys2Proof.Machine

/-! ### Runs of every poll -/

section
variable {α : Type} {m : State → State} {queue : List α → Answers} {event : α → Event} {bad rest : List α} {x : α}
  {i : Instr} {s t : State}

theorem PollRejects.mono {bad' : List α} (h : PollRejects m queue event bad s) (hsub : bad' ⊆ bad) :
    PollRejects m queue event bad' s where
  attempt u y ys hu hdue hq hy := h.attempt u y ys hu hdue hq (hsub hy)
  delay := h.delay

/-- A poll from its start to the attempt that follows the rejected answers `bad`, which leads to `t`. -/
theorem PollRejects.reaches (h : PollRejects m queue event bad s) (hr : s.ph = .run) (hd : decodeCommand s.cmd = some i)
    (hm : (microList i)[s.upc]? = some m) (hpos : s.pos = .start) (hq : s.answers = queue (bad ++ x :: rest))
    (hlt : bad.length < s.cfg.maxAttempts) (hlast : ∀ u, Retried queue event bad (x :: rest) s u → m u = t) :
    Reaches (2 * bad.length + 1) s t := by
  obtain ⟨u, hreach, hu⟩ := h.retried hr hd hm (attemptDue_of_start hpos (by omega)) hq
    (by rw [attemptNumber_of_start hpos]; omega)
  exact hreach.trans (.one (by rw [hu.same.step_eq hr hd hm, hlast u hu]))

/-- A poll whose whole budget is rejected: BusFailure comes in the step of the last attempt (41_poll R164, R177 (e)). -/
theorem PollRejects.fails (h : PollRejects m queue event (bad ++ [x]) s) (hr : s.ph = .run)
    (hd : decodeCommand s.cmd = some i) (hm : (microList i)[s.upc]? = some m) (hpos : s.pos = .start)
    (hq : s.answers = queue (bad ++ x :: rest)) (hlen : bad.length + 1 = s.cfg.maxAttempts) :
    Reaches (2 * bad.length + 1) s
      { s with
        att := s.cfg.maxAttempts, ph := .done, answers := queue rest
        res := { s.res with valid := true, err := 1#3, attempts := s.cfg.maxAttempts }
        events := s.events ++ withDelays ((bad ++ [x]).map event) ++
          [.result { s.res with valid := true, err := 1#3, attempts := s.cfg.maxAttempts }] } := by
  refine (h.mono (by simp)).reaches hr hd hm hpos hq (by omega) fun u ⟨hsame, hdue, hnumber, hanswers, hevents⟩ => ?_
  have hlast : attemptNumber u = s.cfg.maxAttempts := by rw [hnumber, attemptNumber_of_start hpos]; omega
  have hcfg : u.cfg = s.cfg := by rw [hsame]
  rw [h.attempt u x rest hsame hdue hanswers (by simp), rejected, if_neg (by rw [hlast, hcfg]; omega), hlast, hevents,
    withDelays_map_append, hsame]
  simp [hpos]

end

/-! ### The status read -/

/-- Settles O26: it is the run `reaches_hget`. -/
theorem statusReadPollCounts : Obligations.StatusReadPollCounts := fun _ _ _ _ _ _ => reaches_hget

/-- Settles O29: a budget of at least one attempt has a last one, and HGET rejects each of them. -/
theorem statusReadPollFails : Obligations.StatusReadPollFails := by
  intro i s bad rest hr hd hg hpos ho hq hbad hlen hbudget
  obtain rfl | ⟨init, x, rfl⟩ := bad.eq_nil_or_concat'
  · rw [← hlen] at hbudget; cases hbudget
  · rw [List.length_append, List.length_singleton] at hlen ⊢
    refine (pollRejects_hget ho hbad).fails hr hd (microList_hget hg) hpos (rest := rest) ?_ hlen
    rw [List.append_cons, ← hq]

/-! ### The status write -/

/-- With `TXB` loaded, every attempt of HSET sends it (41_poll R175). -/
theorem sentByte_of_loaded {s : State} (h : s.txb = encodeOf s.status) :
    (if s.inPoll then s.txb else encodeOf s.status) = s.txb := by
  rw [← h, ite_self]

theorem pollRejects_hset {s : State} {bad : List (List Byte)} (htxb : s.txb = encodeOf s.status) (ho : s.hubOpen = true)
    (hbad : ∀ x ∈ bad, okHub x = none) :
    PollRejects hset (fun q => { s.answers with hub := q }) (.hubXfer s.txb) bad s where
  attempt u x xs hsame hdue hq hx := by
    have hopen : u.hubOpen = true := by rw [hsame]; exact ho
    have hload : u.txb = encodeOf u.status := by rw [hsame]; exact htxb
    have hsent : u.txb = s.txb := by rw [hsame]
    have htail : { u.answers with hub := xs } = { s.answers with hub := xs } := by rw [hq]
    rw [hset_due hdue hopen, sentByte_of_loaded hload, drawHub_of_cons (xs := xs) (by rw [hq]), hbad x hx, htail, ← hsent]
  delay u _ hpos hlt := hset_delay hpos hlt

section
variable {i : Instr} {s : State} {bad : List (List Byte)} {rx : List Byte} {b : Byte} {rest : List (List Byte)}

/-- A status write with `TXB` already loaded. -/
theorem reaches_hset_loaded (htxb : s.txb = encodeOf s.status) (hr : s.ph = .run) (hd : decodeCommand s.cmd = some i)
    (hg : hsetAt i s.upc = true) (hpos : s.pos = .start) (ho : s.hubOpen = true) (hq : s.answers.hub = bad ++ rx :: rest)
    (hbad : ∀ x ∈ bad, okHub x = none) (hlt : bad.length < s.cfg.maxAttempts) (hb : okHub rx = some b) :
    Reaches (2 * bad.length + 1) s
      { s with
        att := bad.length + 1, upc := s.upc + 1, answers := { s.answers with hub := rest }
        events := s.events ++ withDelays ((bad ++ [rx]).map (.hubXfer s.txb)) } := by
  refine (pollRejects_hset htxb ho hbad).reaches hr hd (microList_hset hg) hpos (x := rx) (rest := rest) (by rw [← hq]) hlt
    fun u ⟨hsame, hdue, hnumber, hanswers, hevents⟩ => ?_
  have hopen : u.hubOpen = true := by rw [hsame]; exact ho
  have hload : u.txb = encodeOf u.status := by rw [hsame]; exact htxb
  rw [hset_due hdue hopen, sentByte_of_loaded hload, drawHub_of_cons (xs := rest) (by rw [hanswers]), hb, hanswers, hnumber,
    attemptNumber_of_start hpos, Nat.add_comm 1, hevents, withDelays_map_append, hsame]
  simp [hpos]

/-- At its start HSET loads `TXB`, so it makes no difference that it is loaded already (41_poll R175). -/
theorem hset_loaded (hpos : s.pos = .start) : hset { s with txb := encodeOf s.status } = hset s := by
  simp [hset, loadTxb, State.inPoll, hpos]

/-- A status write through the rejected answers `bad` to an accepted one (41_poll R161, R162, R175). -/
theorem reaches_hset (hr : s.ph = .run) (hd : decodeCommand s.cmd = some i) (hg : hsetAt i s.upc = true)
    (hpos : s.pos = .start) (ho : s.hubOpen = true) (hq : s.answers.hub = bad ++ rx :: rest)
    (hbad : ∀ x ∈ bad, okHub x = none) (hlt : bad.length < s.cfg.maxAttempts) (hb : okHub rx = some b) :
    Reaches (2 * bad.length + 1) s
      { s with
        att := bad.length + 1, txb := encodeOf s.status, upc := s.upc + 1, answers := { s.answers with hub := rest }
        events := s.events ++ withDelays ((bad ++ [rx]).map (.hubXfer (encodeOf s.status))) } := by
  obtain ⟨u, hu, hreach⟩ := (reaches_hset_loaded (s := { s with txb := encodeOf s.status }) rfl hr hd hg hpos ho hq hbad hlt
    hb).of_succ
  refine .step ?_ hreach
  rw [step_micro hr hd (microList_hset hg), ← hset_loaded hpos, ← hu]
  exact (step_micro (s := { s with txb := encodeOf s.status }) hr hd (microList_hset hg)).symm

end

/-- Settles O27: it is the run `reaches_hset`. -/
theorem statusWritePollCounts : Obligations.StatusWritePollCounts := fun _ _ _ _ _ _ => reaches_hset

/-! ### The gauge read -/

theorem drawGauge_of_cons {s : State} {x : Option Word} {xs : List (Option Word)} (h : s.answers.gauge = x :: xs) :
    drawGauge s = (x, { s with answers := { s.answers with gauge := xs } }) := by
  unfold drawGauge; rw [h]

section
variable {i : Instr} {r : GaugeReg} {s : State} {bad : List (Option Word)} {raw : Word} {rest : List (Option Word)}

theorem pollRejects_grd {m : State → State} (hm : ∀ u, SamePoll s u → m u = grd r u) (ho : s.regOpen = true)
    (hbad : ∀ x ∈ bad, acceptGauge s.cfg.zeroFilterAll r x = none) :
    PollRejects m (fun q => { s.answers with gauge := q }) (.regRead (gaugeAddress s.cfg) (gaugeNumber s.cfg r) 2) bad s where
  attempt u x xs hsame hdue hq hx := by
    have hopen : u.regOpen = true := by rw [hsame]; exact ho
    have hcfg : u.cfg = s.cfg := by rw [hsame]
    rw [hm u hsame, grd_due r hdue hopen, drawGauge_of_cons (xs := xs) (by rw [hq]), hcfg, hbad x hx, hq]
  delay u hsame hpos hlt := by rw [hm u hsame]; exact grd_delay r hpos hlt

/-- The micro-operation at `UPC` is the read of one register in every state of its poll, which leaves `DIR` alone. -/
theorem micro_of_grdAt (h : grdAt i s.upc s.dir = some r) :
    ∃ m, (microList i)[s.upc]? = some m ∧ ∀ u, SamePoll s u → m u = grd r u := by
  obtain ⟨m, hm, -⟩ := microList_grd h
  refine ⟨m, hm, fun u hsame => ?_⟩
  have hupc : u.upc = s.upc := by rw [hsame]
  have hdir : u.dir = s.dir := by rw [hsame]
  obtain ⟨m', hm', hgrd⟩ := microList_grd (s := u) (by rw [hupc, hdir]; exact h)
  rw [hupc, hm] at hm'
  cases hm'
  exact hgrd

/-- A gauge read through the rejected answers `bad` to an accepted one (41_poll R161, R162, R176). -/
theorem reaches_grd (hr : s.ph = .run) (hd : decodeCommand s.cmd = some i) (hg : grdAt i s.upc s.dir = some r)
    (hpos : s.pos = .start) (ho : s.regOpen = true) (hq : s.answers.gauge = bad ++ some raw :: rest)
    (hbad : ∀ x ∈ bad, acceptGauge s.cfg.zeroFilterAll r x = none) (hlt : bad.length < s.cfg.maxAttempts)
    (hraw : acceptGauge s.cfg.zeroFilterAll r (some raw) = some raw) :
    Reaches (2 * bad.length + 1) s
      { s with
        att := bad.length + 1, raw := raw, upc := s.upc + 1, answers := { s.answers with gauge := rest }
        events := s.events ++
          withDelays ((bad ++ [some raw]).map (.regRead (gaugeAddress s.cfg) (gaugeNumber s.cfg r) 2)) } := by
  obtain ⟨m, hm, hgrd⟩ := micro_of_grdAt hg
  refine (pollRejects_grd hgrd ho hbad).reaches hr hd hm hpos (x := some raw) (rest := rest) (by rw [← hq]) hlt
    fun u ⟨hsame, hdue, hnumber, hanswers, hevents⟩ => ?_
  have hopen : u.regOpen = true := by rw [hsame]; exact ho
  have hcfg : u.cfg = s.cfg := by rw [hsame]
  rw [hgrd u hsame, grd_due r hdue hopen, drawGauge_of_cons (xs := rest) (by rw [hanswers]), hcfg, hraw, hanswers, hnumber,
    attemptNumber_of_start hpos, Nat.add_comm 1, hevents, withDelays_map_append, hsame]
  simp [hpos]

end

/-- Settles O28: it is the run `reaches_grd`. -/
theorem gaugeReadPollCounts : Obligations.GaugeReadPollCounts := fun _ _ _ _ _ _ => reaches_grd

end Sys2Proof.Machine
end

section
/-! The battery commands from acceptance to result (42_battery R192 to R194), O32 to O34, each put together from its pieces:
acceptance and the first gauge read, which opens the bus, then CLS, the second read and FIN. -/

namespace Sys2Proof.Machine

/-- A command word is its command's, so the word decides the command (30_encoding R106, R109). -/
theorem decodeCommand_of_eq_encode {w : Byte} {i : Instr} (h : w = encode i) : decodeCommand w = some i :=
  (decodeCommand_eq_some_iff w i).2 h

/-- Every battery command reads the gauge first (42_battery R192 to R194). -/
theorem needsOperand_of_grdAt {i : Instr} {k : Nat} {d : Direction} {r : GaugeReg} (h : grdAt i k d = some r) :
    needsOperand i = false := by
  rcases grdAt_cases h with ⟨rfl | rfl, -⟩ | ⟨rfl, -⟩ | ⟨rfl, -⟩ <;> rfl

/-- The step of CLS (42_battery R191). -/
theorem step_classify {i : Instr} {s : State} (hi : i = .batteryState ∨ i = .batteryTime) (hr : s.ph = .run)
    (hd : decodeCommand s.cmd = some i) (hu : s.upc = 1) : step s = .next (classify s) :=
  step_micro hr hd (by rw [hu]; rcases hi with rfl | rfl <;> rfl)

section
variable {i : Instr} {s : State} {p : Presented} {r : GaugeReg} {bad : List (Option Word)} {raw : Word}
  {rest : List (Option Word)}

/-- GRD at its start on a closed bus opens it (20_memory R76). -/
theorem grd_opens (r : GaugeReg) (hpos : s.pos = .start) (hbudget : 0 < s.cfg.maxAttempts) (ho : s.regOpen = false) :
    grd r s = { s with att := 0, regOpen := true, events := s.events ++ [.opened .reg] } :=
  pollStep_opens .reg _ _ hpos hbudget ho

/-- A gauge read at its start on a closed bus: the opening, then the poll. -/
theorem reaches_grd_opening (hr : s.ph = .run) (hd : decodeCommand s.cmd = some i) (hg : grdAt i s.upc s.dir = some r)
    (hpos : s.pos = .start) (ho : s.regOpen = false) (hq : s.answers.gauge = bad ++ some raw :: rest)
    (hbad : ∀ x ∈ bad, acceptGauge s.cfg.zeroFilterAll r x = none) (hlt : bad.length < s.cfg.maxAttempts)
    (hraw : acceptGauge s.cfg.zeroFilterAll r (some raw) = some raw) :
    Reaches (2 * bad.length + 2) s
      { s with
        att := bad.length + 1, raw := raw, upc := s.upc + 1, regOpen := true, answers := { s.answers with gauge := rest }
        events := s.events ++ [.opened .reg] ++
          withDelays ((bad ++ [some raw]).map (.regRead (gaugeAddress s.cfg) (gaugeNumber s.cfg r) 2)) } := by
  obtain ⟨m, hm, hgrd⟩ := microList_grd hg
  have hopen := step_micro hr hd hm
  rw [hgrd, grd_opens r hpos (by omega) ho] at hopen
  exact .step hopen (reaches_grd hr hd hg hpos rfl hq hbad hlt hraw)

/-- Every battery command on a closed bus: acceptance, the opening, and the polled gauge read at index 0. -/
theorem reaches_firstGaugeRead (hp : s.ph = .idle) (hport : s.port = some p) (hd : decodeCommand p.cmd = some i)
    (hg : grdAt i 0 s.dir = some r) (ho : s.regOpen = false) (hq : s.answers.gauge = bad ++ some raw :: rest)
    (hbad : ∀ x ∈ bad, acceptGauge s.cfg.zeroFilterAll r x = none) (hlt : bad.length < s.cfg.maxAttempts)
    (hraw : acceptGauge s.cfg.zeroFilterAll r (some raw) = some raw) :
    Reaches (2 * bad.length + 3) s
      { latch p s with
        ph := .run, upc := 1, att := bad.length + 1, raw := raw, regOpen := true
        answers := { s.answers with gauge := rest }
        events := s.events ++ [.opened .reg] ++
          withDelays ((bad ++ [some raw]).map (.regRead (gaugeAddress s.cfg) (gaugeNumber s.cfg r) 2)) } :=
  .step (step_starts (needsOperand_of_grdAt hg) hp hport hd)
    (reaches_grd_opening (s := { latch p s with ph := .run }) rfl hd hg rfl ho hq hbad hlt hraw)

end

/-- Settles O32: the first read, CLS, FIN. -/
theorem batteryStateCommand : Obligations.BatteryStateCommand := by
  intro s p bad raw rest hp hport hcmd ho hq hbad hlt hraw
  have hd : decodeCommand p.cmd = some .batteryState := decodeCommand_of_eq_encode hcmd
  have hread := reaches_firstGaugeRead hp hport hd rfl ho hq hbad hlt hraw
  have hcls := hread.trans (.one (step_classify (.inl rfl) rfl hd rfl))
  exact ⟨_, hcls.trans (.one (step_fin rfl hd rfl)), rfl, rfl, rfl, rfl, rfl, rfl, rfl⟩

/-- Settles O33: the first read, FIN. -/
theorem batteryCapacityCommand : Obligations.BatteryCapacityCommand := by
  intro s p bad raw rest hp hport hcmd ho hq hbad hlt hraw
  have hd : decodeCommand p.cmd = some .batteryCapacity := decodeCommand_of_eq_encode hcmd
  have hread := reaches_firstGaugeRead hp hport hd rfl ho hq hbad hlt hraw
  exact ⟨_, hread.trans (.one (step_fin rfl hd rfl)), rfl, rfl, rfl, rfl, rfl, rfl, rfl⟩

/-- The register of the second read of BATTERY.TIME follows the direction CLS has found (42_battery R194). -/
theorem timeRegister_directionOf (n : Int) :
    timeRegister (directionOf n) = if -10 ≤ n then .chargeTime else .dischargeTime := by
  unfold directionOf chgThreshold
  split <;> rfl

/-- Settles O34: the first read, CLS, the read of the time register on the open bus, FIN. -/
theorem batteryTimeCommand : Obligations.BatteryTimeCommand := by
  intro s p bad bad' raw raw' rest dir reg hp hport hcmd ho hq hbad hlt hraw hbad' hlt' hraw'
  have hd : decodeCommand p.cmd = some .batteryTime := decodeCommand_of_eq_encode hcmd
  have hreg : timeRegister (directionOf (normalise raw)) = reg := timeRegister_directionOf _
  have hread := reaches_firstGaugeRead hp hport hd rfl ho (by rw [hq, List.append_assoc, List.cons_append]) hbad hlt hraw
  have hcls := hread.trans (.one (step_classify (.inr rfl) rfl hd rfl))
  have htime := hcls.trans (reaches_grd rfl hd (congrArg some hreg) rfl rfl rfl hbad' hlt' hraw')
  have hfin := htime.trans (.one (step_fin rfl hd rfl))
  rw [show 2 * bad.length + 3 + 1 + (2 * bad'.length + 1) + 1 = 2 * bad.length + 2 * bad'.length + 6 by omega] at hfin
  exact ⟨_, hfin, rfl, rfl, rfl, rfl, rfl, rfl, rfl⟩

end Sys2Proof.Machine
end

section
/-! The mutating hub command with something to send (43_hub_commands R210, R212, R237), O39: after the first status read MUT,
the write, and two confirmation reads, each a run of its own. -/

namespace Sys2Proof.Machine

/-- The step of MUT with something to send (43_hub_commands R214 to R220). -/
theorem step_mutTo {i : Instr} {s : State} {h : HubStatus} (hi : isMutating i = true) (hr : s.ph = .run)
    (hd : decodeCommand s.cmd = some i) (hu : s.upc = 1) (hmut : mutation i s.status = some h) :
    step s = .next (mutTo h s) := by
  obtain ⟨m, hm, hmeaning⟩ := microList_mut hi
  rw [step_micro hr hd (by rw [hu]; exact hm), hmeaning, hmut]

theorem hsetAt_two {i : Instr} (h : isMutating i = true) : hsetAt i 2 = true := by simp [hsetAt, h]
theorem hgetAt_three {i : Instr} (h : isMutating i = true) : hgetAt i 3 = true := by simp [hgetAt, h]
theorem hgetAt_four {i : Instr} (h : isMutating i = true) : hgetAt i 4 = true := by simp [hgetAt, h]

/-- Settles O39: the six pieces of the list one after the other, each taking its answers from the queue. -/
theorem mutatingCommandConfirmsTwice : Obligations.MutatingCommandConfirmsTwice := by
  intro i s p bad1 bad2 bad3 bad4 rx1 rx2 rx3 rx4 b1 b2 b3 b4 h rest hi hp hport hd ho hq hbad hlt1 hlt2 hlt3 hlt4
    hb1 hb2 hb3 hb4 hmut tx
  simp only [List.forall_mem_append] at hbad
  obtain ⟨⟨⟨hbad1, hbad2⟩, hbad3⟩, hbad4⟩ := hbad
  have hhub := isHub_of_isMutating hi
  have hread := reaches_firstRead hhub hp hport hd ho hq hbad1 hlt1 hb1
  have hchange := hread.trans (.one (step_mutTo hi rfl hd rfl hmut))
  have hwrite := hchange.trans (reaches_hset rfl hd (hsetAt_two hi) rfl rfl rfl hbad2 hlt2 hb2)
  have hconfirm := hwrite.trans (reaches_hget rfl hd (hgetAt_three hi) rfl rfl rfl hbad3 hlt3 hb3)
  have hreport := hconfirm.trans (reaches_hget rfl hd (hgetAt_four hi) rfl rfl rfl hbad4 hlt4 hb4)
  have hfin := hreport.trans (.one (step_fin rfl hd (finIndex_of_isMutating hi).symm))
  refine ⟨_, _, by omega, hfin, rfl, rfl, rfl, rfl, rfl, ?_, rfl⟩
  rw [payloadOf_of_isHub hhub]
  rfl

end Sys2Proof.Machine
end

section
/-! Every battery or hub command ends (41_poll R165, 43_hub_commands R236, 70_reset R340), O59: `stepsLeft` counts the steps a
running command can still take, and each step that does not end the command lowers it. -/

namespace Sys2Proof.Machine

/-! ### The steps a command can still take -/

/-- The bus of a command that polls: the gauge's, or the hub's (20_memory R60). -/
def pollBus (i : Instr) : Bus := if isBattery i then .reg else .hub

/-- The most steps the micro-operation at index `k` takes from its start on an open bus with a budget of `n` attempts: a poll
makes them with a delay between each two. `DIR` decides which register is polled and not whether one is. -/
def microBudget (i : Instr) (n k : Nat) : Nat := if pollsAt i k .unknown = true then 2 * n - 1 else 1

/-- The same of the micro-operations from index `k` on. -/
def budgetFrom (i : Instr) (n k : Nat) : Nat := ∑ j ∈ Finset.Ico k (finIndex i + 1), microBudget i n j

/-- The attempts and delays that the poll `s` stands in can still make. -/
def pollStepsLeft (s : State) : Nat :=
  2 * (s.cfg.maxAttempts + 1 - attemptNumber s) - (if attemptDue s then 1 else 0)

/-- The steps that the running micro-operation can still take on an open bus. -/
def microStepsLeft (i : Instr) (s : State) : Nat := if pollsAt i s.upc s.dir = true then pollStepsLeft s else 1

/-- The steps that the command can still take: the opening of its bus, the running micro-operation, the later ones. -/
def stepsLeft (i : Instr) (s : State) : Nat :=
  (if s.isOpen (pollBus i) then 0 else 1) + microStepsLeft i s + budgetFrom i s.cfg.maxAttempts (s.upc + 1)

theorem pollsAt_dir (i : Instr) (k : Nat) (d d' : Direction) : pollsAt i k d = pollsAt i k d' := by
  cases i with
  | batteryTime => simp only [pollsAt, grdAt]; split_ifs <;> rfl
  | _ => rfl

theorem budgetFrom_eq_add {i : Instr} {k : Nat} (n : Nat) (h : k ≤ finIndex i) :
    budgetFrom i n k = microBudget i n k + budgetFrom i n (k + 1) :=
  Finset.sum_eq_sum_Ico_succ_bot (Nat.lt_succ_of_le h) _

theorem budgetFrom_anti (i : Instr) (n : Nat) {k l : Nat} (h : k ≤ l) : budgetFrom i n l ≤ budgetFrom i n k :=
  Finset.sum_le_sum_of_subset (Finset.Ico_subset_Ico_left h)

/-- A battery or hub command has at most four polls and two other micro-operations (30_encoding R112). -/
theorem card_polls_le {i : Instr} (hi : needsOperand i = false) :
    ((Finset.Ico 0 (finIndex i + 1)).filter fun j => pollsAt i j .unknown = true).card ≤ 4 ∧
    ((Finset.Ico 0 (finIndex i + 1)).filter fun j => ¬ pollsAt i j .unknown = true).card ≤ 2 := by
  revert hi
  cases i <;> decide

theorem budgetFrom_zero_le {i : Instr} (n : Nat) (hi : needsOperand i = false) : budgetFrom i n 0 ≤ 4 * (2 * n - 1) + 2 := by
  obtain ⟨hpolls, hothers⟩ := card_polls_le hi
  simp only [budgetFrom, microBudget, Finset.sum_ite, Finset.sum_const, smul_eq_mul, mul_one]
  exact Nat.add_le_add (Nat.mul_le_mul_right _ hpolls) hothers

section
variable {i : Instr} {s t : State}

theorem pollStepsLeft_of_due (h : attemptDue s = true) :
    pollStepsLeft s = 2 * (s.cfg.maxAttempts + 1 - attemptNumber s) - 1 := by
  rw [pollStepsLeft, if_pos h]

theorem pollStepsLeft_of_not_due (h : attemptDue s = false) :
    pollStepsLeft s = 2 * (s.cfg.maxAttempts + 1 - attemptNumber s) := by
  rw [pollStepsLeft, h]; rfl

/-- In the invariant only an owed delay keeps a poll from its next attempt. -/
theorem Runs.delayOwed_of_not_due (hs : Runs i s) (h : attemptDue s = false) : s.pos = .delayOwed := by
  have hb := hs.inv.budget
  cases hpos : s.pos <;> simp [attemptDue, hpos] at h ⊢ <;> omega

/-- In the invariant a poll has a step to make, and not more of them than from its start. -/
theorem Runs.pollStepsLeft_bounds (hs : Runs i s) :
    1 ≤ pollStepsLeft s ∧ pollStepsLeft s ≤ 2 * s.cfg.maxAttempts - 1 := by
  have hb := hs.inv.budget
  obtain ⟨hone, hle⟩ := hs.posOk.attemptNumber_le hb
  cases hdue : attemptDue s with
  | true => rw [pollStepsLeft_of_due hdue]; omega
  | false =>
    have hpos := hs.delayOwed_of_not_due hdue
    have hpoll := hs.posOk
    simp only [PosOk, hpos] at hpoll
    have hnumber : attemptNumber s = s.att + 1 := by simp [attemptNumber, State.inPoll, hpos]
    rw [pollStepsLeft_of_not_due hdue]
    omega

theorem Runs.microStepsLeft_bounds (hs : Runs i s) :
    1 ≤ microStepsLeft i s ∧ microStepsLeft i s ≤ microBudget i s.cfg.maxAttempts s.upc := by
  rw [microStepsLeft, microBudget, pollsAt_dir i s.upc .unknown s.dir]
  split
  · exact hs.pollStepsLeft_bounds
  · exact ⟨le_rfl, le_rfl⟩

theorem Runs.stepsLeft_pos (hs : Runs i s) : 1 ≤ stepsLeft i s := by
  have := hs.microStepsLeft_bounds.1
  unfold stepsLeft
  omega

/-- The steps of the running micro-operation and the later ones are within the budget from its index on. -/
theorem Runs.stepsLeft_le (hs : Runs i s) (hupc : s.upc ≤ finIndex i) :
    stepsLeft i s ≤ (if s.isOpen (pollBus i) then 0 else 1) + budgetFrom i s.cfg.maxAttempts s.upc := by
  have := hs.microStepsLeft_bounds.2
  rw [budgetFrom_eq_add _ hupc, stepsLeft]
  omega

/-! ### Each step lowers them -/

/-- The step to `t` ends the command, or it can then take fewer steps than before. -/
def EndsOrLowers (i : Instr) (s t : State) : Prop := t.ph = .done ∨ stepsLeft i t < stepsLeft i s

/-- A step within a poll. -/
theorem stepsLeft_lt_of_poll (hpoll : pollsAt i s.upc s.dir = true) (hupc : t.upc = s.upc) (hdir : t.dir = s.dir)
    (hcfg : t.cfg = s.cfg) (hopen : t.isOpen (pollBus i) = s.isOpen (pollBus i)) (hlt : pollStepsLeft t < pollStepsLeft s) :
    stepsLeft i t < stepsLeft i s := by
  rw [stepsLeft, stepsLeft, microStepsLeft, microStepsLeft, hupc, hdir, hcfg, hopen, if_pos hpoll, if_pos hpoll]
  omega

/-- A step to a later micro-operation. -/
theorem stepsLeft_lt_of_upc (hs : Runs i s) (ht : Runs i t) (hlt : s.upc < t.upc) (hle : t.upc ≤ finIndex i)
    (hcfg : t.cfg = s.cfg) (hopen : t.isOpen (pollBus i) = s.isOpen (pollBus i)) : stepsLeft i t < stepsLeft i s := by
  have hleft := ht.stepsLeft_le hle
  have hlater := budgetFrom_anti i s.cfg.maxAttempts (show s.upc + 1 ≤ t.upc from hlt)
  have hone := hs.microStepsLeft_bounds.1
  rw [hcfg, hopen] at hleft
  rw [stepsLeft.eq_def i s]
  omega

/-- The opening of the bus is no part of the poll. -/
theorem pollStepsLeft_openBus (b : Bus) (s : State) :
    pollStepsLeft ({ s with att := if s.inPoll then s.att else 0 }.openBus b) = pollStepsLeft s := by
  have hin : ({ s with att := if s.inPoll then s.att else 0 }.openBus b).inPoll = s.inPoll := by cases b <;> rfl
  have hdue : attemptDue ({ s with att := if s.inPoll then s.att else 0 }.openBus b) = attemptDue s := by
    cases b <;> rfl
  have hnumber : attemptNumber ({ s with att := if s.inPoll then s.att else 0 }.openBus b) = attemptNumber s := by
    rw [attemptNumber, attemptNumber, hin, State.openBus_att]
    cases s.inPoll <;> rfl
  rw [pollStepsLeft, pollStepsLeft, hnumber, hdue, State.openBus_cfg]

theorem PollIdle.endsOrLowers (h : PollIdle (pollBus i) s t) (hle : attemptNumber s ≤ s.cfg.maxAttempts)
    (hpoll : pollsAt i s.upc s.dir = true) : EndsOrLowers i s t := by
  rcases h with ⟨hpos, -, rfl⟩ | ⟨ho, -, rfl⟩ | ⟨-, -, rfl⟩
  · refine .inr (stepsLeft_lt_of_poll hpoll rfl rfl rfl (by cases pollBus i <;> rfl) ?_)
    have hnumber : attemptNumber { s with pos := .delayTaken, events := s.events ++ [.delay] } = attemptNumber s := by
      simp [attemptNumber, State.inPoll, hpos]
    rw [pollStepsLeft_of_due rfl, hnumber, pollStepsLeft_of_not_due (by simp [attemptDue, hpos])]
    dsimp only
    omega
  · refine .inr ?_
    simp [stepsLeft, microStepsLeft, pollStepsLeft_openBus, ho]
  · exact .inl rfl

/-- A rejected attempt owes a delay, and the attempt and the delay are two of the steps that the poll could make. -/
theorem endsOrLowers_rejected (hpoll : pollsAt i s.upc s.dir = true) (hdue : attemptDue s = true) (a : Answers) (e : Event) :
    EndsOrLowers i s (rejected s a e) := by
  rcases rejected_cases s a e with ⟨hlt, h⟩ | ⟨-, h⟩ <;> rw [h]
  · refine .inr (stepsLeft_lt_of_poll hpoll rfl rfl rfl (by cases pollBus i <;> rfl) ?_)
    have hnumber : attemptNumber { s with
        att := attemptNumber s, answers := a, events := s.events ++ [e], pos := .delayOwed } = attemptNumber s + 1 := rfl
    rw [pollStepsLeft_of_not_due rfl, hnumber, pollStepsLeft_of_due hdue]
    dsimp only
    omega
  · exact .inl rfl

/-- A running command goes on under the invariant until it is done. -/
theorem Runs.micro {m : State → State} (hs : Runs i s) (hm : (microList i)[s.upc]? = some m) (hd : (m s).ph ≠ .done) :
    Runs i (m s) := by
  obtain ⟨⟨hcmd, -⟩, ⟨hph, -⟩ | ⟨hph, -⟩⟩ := microKeeps_micro hm
  · obtain ⟨j, hj, -⟩ := (inv_micro hs hm).runs (hph.trans hs.ph)
    obtain rfl : j = i := by simpa [hcmd, hs.word] using hj.word.symm
    exact hj
  · exact absurd hph hd

/-- A micro-operation that leads to a later one without touching the handles. -/
theorem Runs.endsOrLowers_of_upc {m : State → State} (hs : Runs i s) (hm : (microList i)[s.upc]? = some m)
    (hlt : s.upc < (m s).upc) (hhub : (m s).hubOpen = s.hubOpen) (hreg : (m s).regOpen = s.regOpen) :
    EndsOrLowers i s (m s) := by
  by_cases hd : (m s).ph = .done
  · exact .inl hd
  · obtain ⟨⟨-, -, -, -, hcfg⟩, -⟩ := microKeeps_micro hm
    refine .inr (stepsLeft_lt_of_upc hs (hs.micro hm hd) hlt (upc_micro_le hm) hcfg ?_)
    cases pollBus i
    · exact hhub
    · exact hreg

end

/-- What a step of any of the three polls on bus `b` can do: no attempt, an accepted one, a rejected one. -/
def PollMoves (b : Bus) (s t : State) : Prop :=
  ∃ txb, PollIdle b { s with txb := txb } t ∨
    (t.upc = s.upc + 1 ∧ t.hubOpen = s.hubOpen ∧ t.regOpen = s.regOpen) ∨
    (attemptDue s = true ∧ ∃ a e, t = rejected { s with txb := txb } a e)

theorem pollMoves_hget (s : State) : PollMoves .hub s (hget s) := by
  rcases hget_cases s with h | ⟨-, -, b, -, h⟩ | ⟨hdue, -, -, h⟩
  · exact ⟨s.txb, .inl h⟩
  · exact ⟨s.txb, .inr (.inl (by simp [h]))⟩
  · exact ⟨s.txb, .inr (.inr ⟨hdue, _, _, h⟩)⟩

theorem pollMoves_hset (s : State) : PollMoves .hub s (hset s) := by
  obtain ⟨tx, -, h | ⟨-, -, -, h⟩ | ⟨hdue, -, -, h⟩⟩ := hset_cases s
  · exact ⟨tx, .inl h⟩
  · exact ⟨tx, .inr (.inl (by simp [h]))⟩
  · exact ⟨tx, .inr (.inr ⟨hdue, _, _, h⟩)⟩

theorem pollMoves_grd (r : GaugeReg) (s : State) : PollMoves .reg s (grd r s) := by
  rcases grd_cases r s with h | ⟨-, -, raw, -, h⟩ | ⟨hdue, -, -, h⟩
  · exact ⟨s.txb, .inl h⟩
  · exact ⟨s.txb, .inr (.inl (by simp [h]))⟩
  · exact ⟨s.txb, .inr (.inr ⟨hdue, _, _, h⟩)⟩

theorem pollBus_of_isHub {i : Instr} (h : isHub i = true) : pollBus i = .hub := by
  simp [pollBus, not_isBattery_of_isHub h]

theorem pollBus_of_isBattery {i : Instr} (h : isBattery i = true) : pollBus i = .reg := by simp [pollBus, h]

section
variable {i : Instr} {s : State} {m : State → State}

theorem PollMoves.endsOrLowers (h : PollMoves (pollBus i) s (m s)) (hs : Runs i s) (hm : (microList i)[s.upc]? = some m)
    (hpoll : pollsAt i s.upc s.dir = true) : EndsOrLowers i s (m s) := by
  obtain ⟨-, hle⟩ := hs.posOk.attemptNumber_le hs.inv.budget
  obtain ⟨txb, h | ⟨hupc, hhub, hreg⟩ | ⟨hdue, a, e, h⟩⟩ := h
  · exact h.endsOrLowers hle hpoll
  · exact hs.endsOrLowers_of_upc hm (by omega) hhub hreg
  · rw [h]; exact endsOrLowers_rejected (s := { s with txb := txb }) hpoll hdue a e

/-- Every micro-operation of a battery or hub command ends it or lowers the count. -/
theorem endsOrLowers_micro (hi : needsOperand i = false) (hs : Runs i s) (hm : (microList i)[s.upc]? = some m) :
    EndsOrLowers i s (m s) := by
  rcases micro_cases hm with ⟨hg, h⟩ | ⟨hg, h⟩ | ⟨r, hg, h⟩ | ⟨-, h⟩ | ⟨-, hu, h⟩ | ⟨-, hu, h⟩ | ⟨md, hmd, -⟩
  · refine PollMoves.endsOrLowers ?_ hs hm (pollsAt_of_hgetAt s.dir hg)
    rw [pollBus_of_isHub (isHub_of_hgetAt hg).1, h]
    exact pollMoves_hget s
  · refine PollMoves.endsOrLowers ?_ hs hm (pollsAt_of_hsetAt s.dir hg)
    rw [pollBus_of_isHub (isHub_of_isMutating (isMutating_of_hsetAt hg).1), h]
    exact pollMoves_hset s
  · refine PollMoves.endsOrLowers ?_ hs hm (pollsAt_of_grdAt hg)
    rw [pollBus_of_isBattery (isBattery_of_grdAt hg), h]
    exact pollMoves_grd r s
  · rw [h]; exact .inl rfl
  · exact hs.endsOrLowers_of_upc hm (by simp [h, hu]) (by rw [h]) (by rw [h])
  · cases hmut : mutation i s.status <;> rw [hmut] at h <;>
      exact hs.endsOrLowers_of_upc hm (by simp [h, hu]) (by rw [h]; rfl) (by rw [h]; rfl)
  · simp [(needsOperand_iff_mode i).2 ⟨md, hmd⟩] at hi

/-- A running battery or hub command comes to its result within the steps that the count leaves it. -/
theorem Runs.ends {n : Nat} (hi : needsOperand i = false) (hs : Runs i s) (hupc : s.upc ≤ finIndex i)
    (hn : stepsLeft i s ≤ n) : ∃ k t, k ≤ n ∧ Reaches k s t ∧ t.ph = .done := by
  induction n generalizing s with
  | zero => have := hs.stepsLeft_pos; omega
  | succ n ih =>
    obtain ⟨m, hm⟩ : ∃ m, (microList i)[s.upc]? = some m :=
      ⟨_, List.getElem?_eq_getElem (by rw [microList_length]; omega)⟩
    have hstep := step_micro hs.ph hs.word hm
    by_cases hd : (m s).ph = .done
    · exact ⟨1, m s, by omega, .one hstep, hd⟩
    · have hlt := (endsOrLowers_micro hi hs hm).resolve_left hd
      obtain ⟨k, t, hk, hreach, ht⟩ := ih (hs.micro hm hd) (upc_micro_le hm) (by omega)
      exact ⟨k + 1, t, by omega, .step hstep hreach, ht⟩

end

/-- Settles O59: at most the opening of the bus, four polls and two other steps are left. -/
theorem everyPolledCommandEnds : Obligations.EveryPolledCommandEnds := by
  intro s i hs hr hd hi
  obtain ⟨j, hruns, hupc⟩ := hs.runs hr
  obtain rfl : j = i := by simpa [hruns.word] using hd
  refine hruns.ends hi hupc ?_
  have hopening : (if s.isOpen (pollBus j) then 0 else 1) ≤ 1 := by split <;> omega
  calc stepsLeft j s
      ≤ (if s.isOpen (pollBus j) then 0 else 1) + budgetFrom j s.cfg.maxAttempts s.upc := hruns.stepsLeft_le hupc
    _ ≤ 1 + budgetFrom j s.cfg.maxAttempts 0 := Nat.add_le_add hopening (budgetFrom_anti j _ (Nat.zero_le _))
    _ ≤ 1 + (4 * (2 * s.cfg.maxAttempts - 1) + 2) := Nat.add_le_add_left (budgetFrom_zero_le _ hi) 1
    _ ≤ 8 * s.cfg.maxAttempts + 4 := by omega

end Sys2Proof.Machine
end

section
/-! NORMALISE and the classification of a state word by it (42_battery R190, R191), O9 and O30. -/

namespace Sys2Proof.Machine

/-! ### NORMALISE -/

/-- The two arms of NORMALISE in the word's own value: its sign is bit 15 (42_battery R190). -/
theorem normalise_eq_ite (raw : Word) :
    normalise raw = if raw[15] then (raw.toNat : Int) - 65536 else raw.toNat := by
  rw [normalise_eq_toInt, BitVec.toInt_eq_msb_cond, BitVec.msb_eq_getLsbD_last]
  rfl

/-- Settles O9: the arm that bit 15 selects, and the range of a 16-bit two's complement. -/
theorem normaliseIsTwosComplement : Obligations.NormaliseIsTwosComplement := by
  intro raw
  refine ⟨fun hclear => ?_, fun hsign => ?_, ?_, ?_⟩
  · simp [normalise_eq_ite, hclear]
  · simp [normalise_eq_ite, hsign]
  · rw [normalise_eq_toInt]; exact raw.le_toInt
  · rw [normalise_eq_toInt]; exact Int.le_of_lt_add_one raw.toInt_lt

/-! ### CLS -/

/-- The threshold itself is on the charging side (42_battery R191). -/
theorem directionOf_of_ge {n : Int} (h : -10 ≤ n) : directionOf n = .charging := if_pos h

theorem directionOf_of_lt {n : Int} (h : n < -10) : directionOf n = .discharging := if_neg (Int.not_le.2 h)

/-- CLS is at index 1 of the two commands that find a direction (42_battery R192, R194). -/
theorem microList_classify {i : Instr} (hi : i = .batteryState ∨ i = .batteryTime) :
    (microList i)[1]? = some classify := by
  rcases hi with rfl | rfl <;> rfl

/-- A running command at CLS makes it. -/
theorem exec_classify {i : Instr} {s : State} (hi : i = .batteryState ∨ i = .batteryTime) (hr : s.ph = .run)
    (hu : s.upc = 1) :
    exec i s = .next { s with norm := normalise s.raw, dir := directionOf (normalise s.raw), upc := 2, pos := .start } := by
  rw [exec_run hr (hu ▸ microList_classify hi), classify, State.advance, hu]

/-- Settles O30: the step of CLS on each side of the threshold. -/
theorem classifyByThreshold : Obligations.ClassifyByThreshold := by
  intro i s hi hr hu
  constructor
  · intro hge
    rw [exec_classify hi hr hu, directionOf_of_ge hge]
  · intro hlt
    rw [exec_classify hi hr hu, directionOf_of_lt hlt]

end Sys2Proof.Machine
end

section
/-! MUT of the fifteen mutating commands (43_hub_commands R214 to R220, R236, R238): what it writes where something is to be
sent, O36 and O42, and the skip to FIN where nothing is, O37 and O40; a failed confirmation read, O41; the view, O12. -/

namespace Sys2Proof.Machine

/-! ### MUT as a step -/

section
variable {i : Instr} {s t : State} {h : HubStatus}

/-- MUT with something to send. -/
theorem exec_mutTo (hi : isMutating i = true) (hr : s.ph = .run) (hu : s.upc = 1) (hmut : mutation i s.status = some h) :
    exec i s = .next (mutTo h s) := by
  obtain ⟨m, hm, hmeaning⟩ := microList_mut hi
  rw [exec_run hr (hu ▸ hm), hmeaning, hmut]

/-- MUT with nothing to send (43_hub_commands R236 (b)). -/
theorem exec_mutSkip (hi : isMutating i = true) (hr : s.ph = .run) (hu : s.upc = 1) (hmut : mutation i s.status = none) :
    exec i s = .next (mutSkip s) := by
  obtain ⟨m, hm, hmeaning⟩ := microList_mut hi
  rw [exec_run hr (hu ▸ hm), hmeaning, hmut]

theorem step_mutSkip (hi : isMutating i = true) (hr : s.ph = .run) (hd : decodeCommand s.cmd = some i) (hu : s.upc = 1)
    (hmut : mutation i s.status = none) : step s = .next (mutSkip s) := by
  rw [step_run hr hd, exec_mutSkip hi hr hu hmut]

/-- A MUT that goes on to HSET has something to send. -/
theorem mutation_of_exec_upc_two (hi : isMutating i = true) (hr : s.ph = .run) (hu : s.upc = 1) (ht : exec i s = .next t)
    (htwo : t.upc = 2) : mutation i s.status = some t.status := by
  cases hmut : mutation i s.status with
  | some h =>
    rw [exec_mutTo hi hr hu hmut] at ht
    cases ht
    rfl
  | none =>
    rw [exec_mutSkip hi hr hu hmut] at ht
    cases ht
    cases htwo

end

/-! ### What each command makes of a status -/

section
variable {i : Instr} {h h' : HubStatus}

/-- BACKLIGHT.N is a mutating command that turns the screen on at N (43_hub_commands R220). -/
theorem mutation_of_levelCommands {q : Nibble × Instr} (hq : q ∈ levelCommands) :
    isMutating q.2 = true ∧ ∀ h, mutation q.2 h = some { h with screenOff := false, brightness := q.1 } := by
  fin_cases hq <;> exact ⟨rfl, fun _ => rfl⟩

/-- INCREASE sends one level more, below `BRIGHT_MAX` (43_hub_commands R216). -/
theorem mutation_increase_eq_some :
    mutation .backlightIncrease h = some h' ↔
      h.brightness.toNat < 10 ∧ { h with screenOff := false, brightness := h.brightness + 1#4 } = h' := by
  simp only [mutation, Option.ite_none_right_eq_some, Option.some.injEq]

/-- DECREASE sends one level less, above `BRIGHT_MIN` (43_hub_commands R217). -/
theorem mutation_decrease_eq_some :
    mutation .backlightDecrease h = some h' ↔
      1 < h.brightness.toNat ∧ { h with screenOff := false, brightness := h.brightness - 1#4 } = h' := by
  simp only [mutation, Option.ite_none_right_eq_some, Option.some.injEq]

theorem toNat_increased {n : Nibble} (h : n.toNat < 10) : (n + 1#4).toNat = n.toNat + 1 := by bv_omega
theorem toNat_decreased {n : Nibble} (h : 1 < n.toNat) : (n - 1#4).toNat + 1 = n.toNat := by bv_omega

/-- Two commands set a flag and leave the level; the others turn the screen on at a level from 1 to 14 (43_hub_commands
R237, R238). -/
theorem mutation_cases (hmut : mutation i h = some h') :
    (i = .systemOff ∧ h' = { h with powerOff := true }) ∨ (i = .backlightOff ∧ h' = { h with screenOff := true }) ∨
    (i ≠ .systemOff ∧ i ≠ .backlightOff ∧
      ∃ n : Nibble, 1 ≤ n.toNat ∧ n.toNat ≤ 14 ∧ h' = { h with screenOff := false, brightness := n }) := by
  cases i
  case systemOff => cases hmut; exact .inl ⟨rfl, rfl⟩
  case backlightOff => cases hmut; exact .inr (.inl ⟨rfl, rfl⟩)
  case backlightIncrease =>
    obtain ⟨hlt, rfl⟩ := mutation_increase_eq_some.1 hmut
    have hlevel := toNat_increased hlt
    exact .inr (.inr ⟨nofun, nofun, _, by omega, by omega, rfl⟩)
  case backlightDecrease =>
    obtain ⟨hlt, rfl⟩ := mutation_decrease_eq_some.1 hmut
    have hlevel := toNat_decreased hlt
    exact .inr (.inr ⟨nofun, nofun, _, by omega, by omega, rfl⟩)
  all_goals cases hmut <;> exact .inr (.inr ⟨nofun, nofun, _, by decide, by decide, rfl⟩)

end

/-! ### The statements about MUT -/

/-- Settles O36: each command's mutation, written out. -/
theorem mutationOfEachCommand : Obligations.MutationOfEachCommand := by
  intro s hr hu
  refine ⟨exec_mutTo rfl hr hu rfl, fun hlt => exec_mutTo rfl hr hu (mutation_increase_eq_some.2 ⟨hlt, rfl⟩),
    fun hlt => exec_mutTo rfl hr hu (mutation_decrease_eq_some.2 ⟨hlt, rfl⟩), exec_mutTo rfl hr hu rfl,
    exec_mutTo rfl hr hu rfl, fun q hq => ?_⟩
  obtain ⟨hi, hmut⟩ := mutation_of_levelCommands hq
  exact exec_mutTo hi hr hu (hmut _)

/-- Settles O37: at these levels the literal test of the command fails. -/
theorem nothingToSendSkipsToFin : Obligations.NothingToSendSkipsToFin := fun _ hr hu =>
  ⟨fun hge => exec_mutSkip rfl hr hu (if_neg (Nat.not_lt.2 hge)),
    fun hle => exec_mutSkip rfl hr hu (if_neg (Nat.not_lt.2 hle))⟩

/-- Settles O42: the fields by `mutation_cases`, the levels by the command's own mutation. -/
theorem brightnessWritten : Obligations.BrightnessWritten := by
  intro i s t hi hr hu ht htwo
  have hmut := mutation_of_exec_upc_two hi hr hu ht htwo
  generalize t.status = h' at hmut ⊢
  have hfields := mutation_cases hmut
  refine ⟨?_, ?_, ?_, ?_, ?_, ?_, ?_, ?_, ?_⟩
  · rcases hfields with ⟨-, rfl⟩ | ⟨-, rfl⟩ | ⟨-, -, n, -, -, rfl⟩ <;> rfl
  · intro hoff
    rcases hfields with ⟨hsystem, -⟩ | ⟨-, rfl⟩ | ⟨-, -, n, -, -, rfl⟩
    · exact absurd hsystem hoff
    · rfl
    · rfl
  · rintro (rfl | rfl) <;> cases hmut <;> rfl
  · rintro rfl
    cases hmut
    rfl
  · intro hnotSystem hnotScreen
    rcases hfields with ⟨hsystem, -⟩ | ⟨hscreen, -⟩ | ⟨-, -, n, hmin, hmax, rfl⟩
    · exact absurd hsystem hnotSystem
    · exact absurd hscreen hnotScreen
    · exact ⟨hmin, hmax, rfl⟩
  · rintro rfl
    obtain ⟨hlt, rfl⟩ := mutation_increase_eq_some.1 hmut
    exact ⟨toNat_increased hlt, (toNat_increased hlt).trans_le hlt⟩
  · rintro rfl
    obtain ⟨hlt, rfl⟩ := mutation_decrease_eq_some.1 hmut
    exact toNat_decreased hlt
  · rintro rfl
    cases hmut
    rfl
  · rintro q hq rfl
    rw [(mutation_of_levelCommands hq).2] at hmut
    cases hmut
    rfl

/-! ### Whole commands -/

/-- Settles O40: the first read, the MUT that skips, FIN. -/
theorem nothingToSendReportsTheFirstRead : Obligations.NothingToSendReportsTheFirstRead := by
  intro i s p bad rx b rest hi hp hport hd ho hq hbad hlt hb hmut
  have hmutating : isMutating i = true := by rcases hi with rfl | rfl <;> rfl
  have hhub := isHub_of_isMutating hmutating
  have hread := reaches_firstRead hhub hp hport hd ho hq hbad hlt hb
  have hskip := hread.trans (.one (step_mutSkip hmutating rfl hd rfl hmut))
  have hfin := hskip.trans (.one (step_fin rfl hd (finIndex_of_isMutating hmutating).symm))
  refine ⟨_, hfin, rfl, rfl, rfl, rfl, rfl, rfl, ?_, rfl⟩
  rw [payloadOf_of_isHub hhub]
  rfl

/-- The delays are the only events that `withDelays` adds (41_poll R162). -/
theorem mem_of_mem_withDelays {e : Event} {es : List Event} (he : e ≠ .delay) (h : e ∈ withDelays es) : e ∈ es := by
  induction es with
  | nil => exact h
  | cons f es ih =>
    cases es with
    | nil => exact h
    | cons g es =>
      rw [withDelays_cons f (List.cons_ne_nil g es), List.mem_cons, List.mem_cons] at h
      rcases h with rfl | hdelay | h
      · exact List.mem_cons_self ..
      · exact absurd hdelay he
      · exact List.mem_cons_of_mem f (ih h)

/-- Settles O41: either confirmation is a status read, whose failure writes the result alone and sends only requests. -/
theorem failedConfirmationRestoresNothing : Obligations.FailedConfirmationRestoresNothing := by
  intro i s bad rest hi hr hd hu hpos ho hq hbad hlen hbudget
  have hget : hgetAt i s.upc = true := by
    rcases hu with hu | hu <;> rw [hu]
    · exact hgetAt_three hi
    · exact hgetAt_four hi
  refine ⟨_, statusReadPollFails i s bad rest hr hd hget hpos ho hq hbad hlen hbudget, rfl, rfl, rfl, rfl, rfl, rfl, _,
    List.append_assoc .., fun tx rx hmem => ?_⟩
  rcases List.mem_append.1 hmem with hpoll | hresult
  · obtain ⟨x, -, hx⟩ := List.mem_map.1 (mem_of_mem_withDelays Event.noConfusion hpoll)
    cases hx
    rfl
  · cases List.mem_singleton.1 hresult

/-! ### The view -/

/-- The view by the number of the device (43_hub_commands R233). -/
def viewOfDevice (dev : Nat) (h : HubStatus) : Option View :=
  match dev with
  | 1 => some (.powerOff h.powerOff)
  | 2 => some (if h.screenOff then .off else .level h.brightness)
  | 3 => some (.lidOpen h.lidOpen)
  | _ => none

theorem viewOf_eq_viewOfDevice (i : Instr) (h : HubStatus) : viewOf i h = viewOfDevice (devField (encode i)).toNat h := by
  cases i <;> rfl

/-- Settles O12: a command's device decides its view. -/
theorem viewByDevice : Obligations.ViewByDevice := by
  intro i h
  rw [viewOf_eq_viewOfDevice]
  refine ⟨fun hdev => ?_, fun hdev hoff => ?_, fun hdev hon => ?_, fun hdev => ?_⟩ <;> rw [hdev]
  · rfl
  · simp [viewOfDevice, hoff]
  · simp [viewOfDevice, hon]
  · rfl

end Sys2Proof.Machine
end

section
/-! The speaker command from acceptance to result (44_speaker R252 to R257), O49: each micro-operation as a run of its own, the
replay by induction on the directives, and the list of the command put together from them. -/

namespace Sys2Proof.Machine

/-! ### The answers of the mixer and of the host -/

section
variable {s : State}

theorem drawMixer_of_cons {x : Option Nat} {xs : List (Option Nat)} (h : s.answers.mixer = x :: xs) :
    drawMixer s = (x, { s with answers := { s.answers with mixer := xs } }) := by
  unfold drawMixer; rw [h]

theorem drawProbe_of_cons {x : Bool} {xs : List Bool} (h : s.answers.probe = x :: xs) :
    drawProbe s = (x, { s with answers := { s.answers with probe := xs } }) := by
  unfold drawProbe; rw [h]

theorem drawFetch_of_cons {x : Option Directive} {xs : List (Option Directive)} (h : s.answers.fetch = x :: xs) :
    drawFetch s = (x, { s with answers := { s.answers with fetch := xs } }) := by
  unfold drawFetch; rw [h]

end

/-! ### The micro-operations as runs -/

/-- The corrective call of MIX when the mixer answers `n` (44_speaker R253). -/
def mixerCorrection (expected n : Nat) : List Event := if n = expected then [] else [.mixerSet expected]

section
variable {i : Instr} {s : State}

/-- A presented command that has the operand it needs starts, and an operand that fits is latched as it is (30_encoding R105,
R107). -/
theorem step_accepts {p : Presented} (hp : s.ph = .idle) (hport : s.port = some p) (hd : decodeCommand p.cmd = some i)
    (harg : p.arg < 2 ^ s.cfg.addrW) (hv : needsOperand i = true → p.argv = true) :
    step s = .next
      { s with ph := .run, cmd := p.cmd, arg := p.arg, argv := p.argv, upc := 0, pos := .start, port := none } := by
  rw [step_idle hp hport hd]
  exact acceptanceStartsTheCommand s p i hp hport harg hd hv

/-- The corrective call of MIX (44_speaker R253). -/
theorem step_mixerSet (hi : needsOperand i = true) (hr : s.ph = .run) (hd : decodeCommand s.cmd = some i) (hu : s.upc = 0)
    (hpos : s.pos = .mixerSetOwed) :
    step s = .next { s with upc := 1, pos := .start, events := s.events ++ [.mixerSet s.cfg.mixerExpected] } := by
  obtain ⟨-, -, -, -, hset⟩ := mixerPrecondition i s hi hr hu
  rw [step_run hr hd, hset hpos]

/-- MIX with a mixer that answers a number: the query, and the corrective call if the number is not the expected one
(44_speaker R253). -/
theorem reaches_mix {n : Nat} {rest : List (Option Nat)} (hi : needsOperand i = true) (hr : s.ph = .run)
    (hd : decodeCommand s.cmd = some i) (hu : s.upc = 0) (hpos : s.pos = .start) (hq : s.answers.mixer = some n :: rest) :
    Reaches (1 + (mixerCorrection s.cfg.mixerExpected n).length) s
      { s with
        upc := 1, pos := .start, answers := { s.answers with mixer := rest }
        events := s.events ++ [.mixerQuery (some n)] ++ mixerCorrection s.cfg.mixerExpected n } := by
  obtain ⟨-, -, hright, hwrong, -⟩ := mixerPrecondition i s hi hr hu
  rw [drawMixer_of_cons hq, ← step_run hr hd] at hright hwrong
  unfold mixerCorrection
  by_cases hn : n = s.cfg.mixerExpected
  · rw [if_pos hn, List.append_nil, ← hpos, hn]
    exact .one (hright hpos (congrArg some hn))
  · rw [if_neg hn]
    exact .step (hwrong n hpos rfl hn) (.one (step_mixerSet hi hr hd hu rfl))

/-- DIRCHK with a source that exists (44_speaker R254). -/
theorem step_dirchk {rest : List Bool} (hi : needsOperand i = true) (hr : s.ph = .run) (hd : decodeCommand s.cmd = some i)
    (hu : s.upc = 1) (hpos : s.pos = .start) (hq : s.answers.probe = true :: rest) :
    step s = .next
      { s with
        upc := 2, pos := .start, answers := { s.answers with probe := rest }, events := s.events ++ [.dirProbe true] } := by
  obtain ⟨hpresent, -, -⟩ := directiveSourceCheck i s hi hr hu
  rw [step_run hr hd, hpresent (by simp [hpos]) (by rw [drawProbe_of_cons hq]), drawProbe_of_cons hq]

/-- SPKOPEN on the open bus (44_speaker R255). -/
theorem step_spkOpen (hi : needsOperand i = true) (hr : s.ph = .run) (hd : decodeCommand s.cmd = some i) (hu : s.upc = 2)
    (ho : s.regOpen = true) :
    step s = .next
      { s with
        upc := 3, pos := .start, events := s.events ++ [.regWrite s.arg s.cfg.spkCfgReg s.cfg.spkCfgOpen] } := by
  obtain ⟨-, hwrites⟩ := configurationRegisterOpenedAndClosed i s hi hr (.inl hu)
  rw [step_run hr hd, hwrites ho, if_pos hu, hu]

/-- SPKOPEN on the closed bus: the opening, then the write (20_memory R76, 44_speaker R255). -/
theorem reaches_spkOpen (hi : needsOperand i = true) (hr : s.ph = .run) (hd : decodeCommand s.cmd = some i)
    (hu : s.upc = 2) (ho : s.regOpen = false) :
    Reaches 2 s
      { s with
        upc := 3, pos := .start, regOpen := true
        events := s.events ++ [.opened .reg] ++ [.regWrite s.arg s.cfg.spkCfgReg s.cfg.spkCfgOpen] } := by
  obtain ⟨hopens, -⟩ := configurationRegisterOpenedAndClosed i s hi hr (.inl hu)
  exact .step ((step_run hr hd).trans (hopens ho)) (.one (step_spkOpen hi hr hd hu rfl))

/-- SPKCLOSE on the open bus (44_speaker R257). -/
theorem step_spkClose (hi : needsOperand i = true) (hr : s.ph = .run) (hd : decodeCommand s.cmd = some i) (hu : s.upc = 4)
    (ho : s.regOpen = true) :
    step s = .next
      { s with
        upc := 5, pos := .start, events := s.events ++ [.regWrite s.arg s.cfg.spkCfgReg s.cfg.spkCfgClose] } := by
  obtain ⟨-, hwrites⟩ := configurationRegisterOpenedAndClosed i s hi hr (.inr hu)
  rw [step_run hr hd, hwrites ho, if_neg (by omega), hu]

/-! ### The replay -/

variable {mode : Tag} {d : Directive} {rest : List (Option Directive)}

/-- SPKREPLAY ends at `End` (44_speaker R256). -/
theorem step_spkReplay_end (hmode : modeOf i = some mode) (hr : s.ph = .run) (hd : decodeCommand s.cmd = some i)
    (hu : s.upc = 3) (hpos : s.pos = .start) (hq : s.answers.fetch = none :: rest) :
    step s = .next
      { s with
        upc := 4, pos := .start, answers := { s.answers with fetch := rest }, events := s.events ++ [.dirFetch none] } := by
  obtain ⟨hend, -, -, -, -⟩ := directiveReplaySteps i mode s hmode hr hu
  rw [step_run hr hd, hend hpos (by rw [drawFetch_of_cons hq]), drawFetch_of_cons hq, ← hpos]

/-- SPKREPLAY writes and counts the directive it holds (44_speaker R256). -/
theorem step_spkReplay_held (hmode : modeOf i = some mode) (hr : s.ph = .run) (hd : decodeCommand s.cmd = some i)
    (hu : s.upc = 3) (hpos : s.pos = .directiveHeld d) (ho : s.regOpen = true) :
    step s = .next
      { s with
        pos := .start, applied := s.applied + 1, events := s.events ++ [.regWrite s.arg d.reg d.values] } := by
  obtain ⟨-, -, -, hwrites, -⟩ := directiveReplaySteps i mode s hmode hr hu
  rw [step_run hr hd, hwrites d hpos ho]

/-- The pass of SPKREPLAY over a matching directive: it is fetched, then written and counted (44_speaker R256). -/
theorem reaches_spkReplay_matching (hmode : modeOf i = some mode) (hr : s.ph = .run) (hd : decodeCommand s.cmd = some i)
    (hu : s.upc = 3) (hpos : s.pos = .start) (ho : s.regOpen = true) (hq : s.answers.fetch = some d :: rest)
    (ht : tagMatches mode d = true) :
    Reaches 2 s
      { s with
        pos := .start, applied := s.applied + 1, answers := { s.answers with fetch := rest }
        events := s.events ++ [.dirFetch (some d)] ++ [.regWrite s.arg d.reg d.values] } := by
  obtain ⟨-, hmatches, -, -, -⟩ := directiveReplaySteps i mode s hmode hr hu
  rw [drawFetch_of_cons hq] at hmatches
  exact .step ((step_run hr hd).trans (hmatches d hpos rfl (tagMatches_iff.1 ht)))
    (.one (step_spkReplay_held hmode hr hd hu rfl ho))

/-- The pass of SPKREPLAY over a directive of another mode: it is fetched and skipped (44_speaker R256). -/
theorem step_spkReplay_skipped (hmode : modeOf i = some mode) (hr : s.ph = .run) (hd : decodeCommand s.cmd = some i)
    (hu : s.upc = 3) (hpos : s.pos = .start) (hq : s.answers.fetch = some d :: rest) (ht : tagMatches mode d ≠ true) :
    step s = .next
      { s with
        pos := .start, answers := { s.answers with fetch := rest }, events := s.events ++ [.dirFetch (some d)] } := by
  obtain ⟨-, -, hskips, -, -⟩ := directiveReplaySteps i mode s hmode hr hu
  obtain ⟨halways, hother⟩ := not_or.1 (mt tagMatches_iff.2 ht)
  rw [step_run hr hd, hskips d hpos (by rw [drawFetch_of_cons hq]) halways hother, drawFetch_of_cons hq, ← hpos]

/-- SPKREPLAY over any list of directives, to its `End` (44_speaker R256). -/
theorem reaches_spkReplay {ds : List Directive} (hmode : modeOf i = some mode) (hr : s.ph = .run)
    (hd : decodeCommand s.cmd = some i) (hu : s.upc = 3) (hpos : s.pos = .start) (ho : s.regOpen = true)
    (hq : s.answers.fetch = ds.map some ++ none :: rest) :
    Reaches (replaySteps mode ds) s
      { s with
        upc := 4, pos := .start, applied := s.applied + (ds.filter (tagMatches mode)).length
        answers := { s.answers with fetch := rest }, events := s.events ++ replayEvents s.arg mode ds } := by
  induction ds generalizing s with
  | nil => exact .one (step_spkReplay_end hmode hr hd hu hpos hq)
  | cons d ds ih =>
    by_cases ht : tagMatches mode d = true
    · have hpass := reaches_spkReplay_matching hmode hr hd hu hpos ho hq ht
      have hrun := hpass.trans (ih hr hd hu rfl ho rfl)
      simpa [replaySteps, replayEvents, ht, Nat.add_right_comm s.applied 1, ← Nat.add_assoc] using hrun
    · have hpass := Reaches.one (step_spkReplay_skipped hmode hr hd hu hpos hq ht)
      have hrun := hpass.trans (ih hr hd hu rfl ho rfl)
      simpa [replaySteps, replayEvents, ht] using hrun

/-! ### The whole command -/

/-- Every speaker command with a mixer that answers and a source that exists, on the closed bus: acceptance, MIX, DIRCHK and
SPKOPEN bring it to the replay (44_speaker R252 to R255). -/
theorem reaches_replay {p : Presented} {n : Nat} {mrest : List (Option Nat)} {prest : List Bool}
    (hi : needsOperand i = true) (hp : s.ph = .idle) (hport : s.port = some p) (hd : decodeCommand p.cmd = some i)
    (hv : p.argv = true) (harg : p.arg < 2 ^ s.cfg.addrW) (ho : s.regOpen = false)
    (hmixer : s.answers.mixer = some n :: mrest) (hprobe : s.answers.probe = true :: prest) :
    Reaches (5 + (mixerCorrection s.cfg.mixerExpected n).length) s
      { s with
        ph := .run, cmd := p.cmd, arg := p.arg, argv := p.argv, upc := 3, pos := .start, port := none, regOpen := true
        answers := { s.answers with mixer := mrest, probe := prest }
        events := s.events ++ [.mixerQuery (some n)] ++ mixerCorrection s.cfg.mixerExpected n ++
          [.dirProbe true, .opened .reg, .regWrite p.arg s.cfg.spkCfgReg s.cfg.spkCfgOpen] } := by
  have hmix := (Reaches.one (step_accepts hp hport hd harg fun _ => hv)).trans (reaches_mix hi rfl hd rfl rfl hmixer)
  have hcheck := hmix.trans (.one (step_dirchk hi rfl hd rfl rfl hprobe))
  have hopen := hcheck.trans (reaches_spkOpen hi rfl hd rfl ho)
  rw [show 1 + (1 + (mixerCorrection s.cfg.mixerExpected n).length) + 1 + 2 =
    5 + (mixerCorrection s.cfg.mixerExpected n).length by omega] at hopen
  simpa using hopen

end

/-- Settles O49: acceptance and the preconditions, the replay of the whole list, SPKCLOSE, FIN. -/
theorem speakerCommand : Obligations.SpeakerCommand := by
  intro i m s p n ds rest mrest prest hmode hp hport hd hv harg ho hmixer hprobe hfetch fix done
  have hi : needsOperand i = true := (needsOperand_iff_mode i).2 ⟨m, hmode⟩
  have hready := reaches_replay hi hp hport hd hv harg ho hmixer hprobe
  have hreplay := hready.trans (reaches_spkReplay hmode rfl hd rfl rfl rfl hfetch)
  have hclose := hreplay.trans (.one (step_spkClose hi rfl hd rfl rfl))
  have hfin := hclose.trans (.one (step_fin rfl hd (finIndex_of_modeOf hmode).symm))
  rw [show 5 + (mixerCorrection s.cfg.mixerExpected n).length + replaySteps m ds + 1 + 1 =
    7 + (mixerCorrection s.cfg.mixerExpected n).length + replaySteps m ds by omega] at hfin
  refine ⟨_, hfin, rfl, rfl, rfl, ?_, ?_⟩
  · rw [payloadOf_of_needsOperand hi]
    rfl
  · simp [fix, finish, mixerCorrection]

end Sys2Proof.Machine
end

section
/-! The table of failures (60_exceptions R271 to R273, R276), O52: each way for a running command to end has one `RES_ERR`. -/

namespace Sys2Proof.Machine

/-- Settles O52, by the ways to end that `exec_ends` lists, FIN and the three failures, one for each row of the table. -/
theorem whichFailureWhere : Obligations.WhichFailureWhere := by
  intro i s t hr h hd
  rcases exec_ends hr h hd with ⟨hu, rfl⟩ | hfails
  · exact .inl ⟨rfl, hu⟩
  cases hfails with
  | poll _ _ _ _ hpoll => exact .inr (.inl ⟨rfl, rfl, hpoll⟩)
  | source hi hu => exact .inr (.inr (.inl ⟨rfl, hi, hu⟩))
  | mixer hi hu => exact .inr (.inr (.inr ⟨rfl, hi, hu⟩))

end Sys2Proof.Machine
end
